-- ==== Sys2Proof/Word.lean ====
section
/-! DEFINITION. The word types of CCUIO (00_scope.md R8 and R10: widths; all values are unsigned). -/

namespace Sys2Proof

/-- A host register, an ADC sample or a bus word: 8 bits (20_memory.md R44). -/
abbrev Byte := BitVec 8

/-- Half a byte, the unit of the display's four data lines (41_display.md R79). -/
abbrev Nibble := BitVec 4

/-- A cycle counter or a cycle-count parameter: 24 bits (00_scope.md R8). -/
abbrev Count := BitVec 24

/-- A host register address `haddr[3:0]` (20_memory.md R36). -/
abbrev HostAddr := BitVec 4

/-- A two-wire bus device address (20_memory.md R37). -/
abbrev BusAddr := BitVec 7

end Sys2Proof
end

