-- ==== Sys2Proof/Syntax.lean ====
section
/-! DEFINITION. The commands of CCUIO, one constructor per row of spec/opcode_table.json (30_encoding.md R54). -/

namespace Sys2Proof

/-- A command (30_encoding.md R53, R54). No command encodes an operand: WRCMD, WRDATA and PUTC take the byte in DATA,
captured at acceptance. -/
inductive Instr where
  /-- INIT, 0x01: the display's initialization sequence (41_display.md R82). -/
  | init
  /-- CLEAR, 0x02: clear the display and wait (R83). -/
  | clear
  /-- WRCMD, 0x03: send DATA as a display command (R84). -/
  | wrcmd
  /-- WRDATA, 0x04: send DATA as character data (R85). -/
  | wrdata
  /-- PUTC, 0x05: send DATA as a character, the newline mapped (R86). -/
  | putc
  /-- SAMPLE, 0x11: one input tick (42_input.md R97). -/
  | sample
  /-- LATCHCLR, 0x12: reset both edge latches (R98). -/
  | latchclr
  deriving DecidableEq, Repr

end Sys2Proof
end

