-- ==== Sys2Proof/WellFormed.lean ====
section
/-! DEFINITION. Well-formed commands. A command has no operand, so what can be ill-formed is its byte: format CMD8 splits
it into a group and an operation (30_encoding.md R53), and only some pairs are commands (R54, R55). -/

namespace Sys2Proof

/-- The fields of a byte in format CMD8 (30_encoding.md R53). -/
structure Cmd8 where
  /-- GRP, bits 7:4: the unit group. -/
  grp : Nibble
  /-- OP, bits 3:0: the operation within the group. -/
  op : Nibble
  deriving DecidableEq, Repr

/-- The two fields of a command byte (30_encoding.md R53). -/
def Cmd8.ofByte (c : Byte) : Cmd8 :=
  { grp := c.extractLsb' 4 4, op := c.extractLsb' 0 4 }

/-- The group is one in use: LCDC (0x0) or JSS/BED (0x1). 0x2 to 0xF are reserved (30_encoding.md R53). -/
def Cmd8.groupInUse (f : Cmd8) : Bool :=
  f.grp == 0x0#4 || f.grp == 0x1#4

/-- The operation is one its group defines: 1 to 5 in the LCDC group, 1 and 2 in the JSS/BED group
(30_encoding.md R54). -/
def Cmd8.opInUse (f : Cmd8) : Bool :=
  if f.grp == 0x0#4 then decide (1 ≤ f.op.toNat ∧ f.op.toNat ≤ 5)
  else decide (1 ≤ f.op.toNat ∧ f.op.toNat ≤ 2)

/-- A command byte's fields name a command (30_encoding.md R54, R55). -/
def Cmd8.wellFormed (f : Cmd8) : Bool :=
  f.groupInUse && f.opInUse

/-- The group and the operation of each command, as 30_encoding.md R54 tables them. -/
def Instr.fields : Instr → Cmd8
  | .init => ⟨0x0#4, 0x1#4⟩
  | .clear => ⟨0x0#4, 0x2#4⟩
  | .wrcmd => ⟨0x0#4, 0x3#4⟩
  | .wrdata => ⟨0x0#4, 0x4#4⟩
  | .putc => ⟨0x0#4, 0x5#4⟩
  | .sample => ⟨0x1#4, 0x1#4⟩
  | .latchclr => ⟨0x1#4, 0x2#4⟩

/-- A command is well-formed when its group and operation are in use. -/
def Instr.wellFormed (i : Instr) : Bool :=
  i.fields.wellFormed

end Sys2Proof
end

