-- ==== Sys2Proof/Decode.lean ====
section
/-! DEFINITION. The command decoder and encoder (30_encoding.md R53 to R56). -/

namespace Sys2Proof

/-- Why a byte is no command. -/
inductive DecodeError where
  /-- The byte is outside the command map (30_encoding.md R55). -/
  | illegalCommand (c : Byte)
  deriving DecidableEq, Repr

/-- One row of the command map: a byte `c` is the command where `c &&& mask = pattern`. -/
structure OpcodeRow where
  mask : Byte
  pattern : Byte
  instr : Instr
  deriving DecidableEq, Repr

/-- The command map of 30_encoding.md R54 and spec/opcode_table.json: every mask is 0xFF. -/
def opcodeTable : List OpcodeRow :=
  [⟨0xFF#8, 0x01#8, .init⟩, ⟨0xFF#8, 0x02#8, .clear⟩, ⟨0xFF#8, 0x03#8, .wrcmd⟩, ⟨0xFF#8, 0x04#8, .wrdata⟩,
   ⟨0xFF#8, 0x05#8, .putc⟩, ⟨0xFF#8, 0x11#8, .sample⟩, ⟨0xFF#8, 0x12#8, .latchclr⟩]

/-- The command a byte written to CMD names. Every byte outside the map is rejected by name (30_encoding.md R55); no
state matters (R56). -/
def decode (c : Byte) : Except DecodeError Instr :=
  match opcodeTable.find? (fun r => c &&& r.mask == r.pattern) with
  | some r => .ok r.instr
  | none => .error (.illegalCommand c)

/-- The byte of a command (30_encoding.md R54), put together from its two fields (R53): `{GRP, OP}`. -/
def encode (i : Instr) : Byte :=
  i.fields.grp ++ i.fields.op

/-- The command byte among the bits `w` of a table row `nbits` wide: a command is exactly one byte, bits 7:0
(30_encoding.md R53). -/
def commandByte (nbits w : Nat) : Byte :=
  BitVec.ofNat 8 (w % 2 ^ nbits)

/-- What the decoder reads from an instruction whose bits are `w`. -/
def decodeTableWord (nbits w : Nat) : Option Instr :=
  match decode (commandByte nbits w) with
  | .ok i => some i
  | .error _ => none

end Sys2Proof
end

