-- ==== Sys2Proof/Config.lean ====
section
/-! DEFINITION. What an instance of CCUIO fixes (the OPEN parameters of 00_scope.md R8), the input values of one
cycle (40_sequencer.md R63; ports of 60_exceptions.md R112 to R114), and the free values: the instance's parameters
at reset and the environment's draws (00_scope.md R12). -/

namespace Sys2Proof

/-- The OPEN parameters of an instance (00_scope.md R8). Every value of each width is legal (R9). -/
structure Params where
  /-- P_LCD_ADDR: device address of the display's I/O expander. -/
  lcdAddr : BusAddr
  /-- P_T_POWERON: wait at the start of INIT. -/
  tPowerOn : Count
  /-- P_T_INIT1: wait after the 1st init nibble. -/
  tInit1 : Count
  /-- P_T_INIT2: wait after the 2nd init nibble. -/
  tInit2 : Count
  /-- P_T_INIT3: wait after the 3rd init nibble. -/
  tInit3 : Count
  /-- P_T_EN: settle time after an enable-asserted bus word. -/
  tEn : Count
  /-- P_T_CLEAR: wait after the clear-display byte. -/
  tClear : Count
  /-- P_AXIS_HOLDOFF: minimum spacing between two events of one axis. -/
  axisHoldoff : Count
  /-- P_BTN_HOLDOFF: minimum spacing between two button press events. -/
  btnHoldoff : Count
  /-- P_WAIT_TIMEOUT: bound on the wait for a response; 0 is no bound (R9). -/
  waitTimeout : Count
  deriving DecidableEq, Repr, Inhabited

/-- The input signals of one cycle, as they stand at its rising edge (40_sequencer.md R63). -/
structure Inputs where
  /-- `rst`: synchronous reset, active high (70_reset_and_hazards.md R122). -/
  rst : Bool
  /-- `h_en`: a host access this cycle (60_exceptions.md R114). -/
  hEn : Bool
  /-- `h_we`: with `h_en`, 1 = write and 0 = read. -/
  hWe : Bool
  /-- `haddr`: register address. -/
  haddr : HostAddr
  /-- `hwdata`: write data. -/
  hwdata : Byte
  /-- `bt_done`: the presented bus word's transaction ends this cycle (R112). -/
  btDone : Bool
  /-- `bt_ok`: with `bt_done`, 1 = acknowledged and 0 = failure. -/
  btOk : Bool
  /-- `adc_done`: the conversion is complete this cycle (R113). -/
  adcDone : Bool
  /-- `adc_data`: the sample, valid with `adc_done`. -/
  adcData : Byte
  /-- `btn_n`: the button level, 1 = released and 0 = pressed. -/
  btnN : Bool
  deriving DecidableEq, Repr, Inhabited

/-- No reset, no host access, no response, button released. -/
def Inputs.quiet : Inputs :=
  { rst := false, hEn := false, hWe := false, haddr := 0, hwdata := 0, btDone := false, btOk := false,
    adcDone := false, adcData := 0, btnN := true }

/-- FREE VALUE (log entry 1, DESIGN CHOICE): the parameters of the instance that `State.reset` belongs to. Each is OPEN
(00_scope.md R8), so nothing says what they are. -/
opaque Config.params : Params

/-- FREE VALUE (log entry 2, DESIGN CHOICE): what the environment drives in a cycle for which no inputs are placed, one
draw for each value of the model's cycle counter (00_scope.md R12; 93_implementation_defined.md U4 to U6). -/
opaque Config.freeInputs : Nat → Inputs

end Sys2Proof
end

