-- ==== Sys2Proof/Machine/State.lean ====
section
/-! DEFINITION. The state of CCUIO as plain data (10_state.md R16 to R35), its enumerations, its reset value, and the
reasons a step can stop. -/

namespace Sys2Proof.Machine

/-- The class of an axis reading (00_scope.md R11; codes in 30_encoding.md R59). -/
inductive AxisClass where
  /-- Center band. -/
  | cen
  /-- Positive. -/
  | pos
  /-- Negative. -/
  | neg
  /-- Between the bands. -/
  | dead
  deriving DecidableEq, Repr

/-- What an edge latch holds (00_scope.md R11, 10_state.md R27). The code 0b11 is no value of it. -/
inductive LatchVal where
  | center
  | pos
  | neg
  deriving DecidableEq, Repr

/-- The two axes. Channel 0 of the ADC is X and channel 1 is Y (20_memory.md R38). -/
inductive Axis where
  | x
  | y
  deriving DecidableEq, Repr

/-- The error codes other than NONE, by name (30_encoding.md R60). -/
inductive ErrCode where
  | eIllegalCmd
  | eBusy
  | eNotInit
  | eReinit
  | eBusNack
  | eBusTimeout
  | eAdcTimeout
  deriving DecidableEq, Repr

/-- A micro-op of the sequencer (40_sequencer.md R68). -/
inductive MicroOp where
  /-- BW(w): send the bus word `w` and wait for the response (R69). -/
  | bw (w : Byte)
  /-- DLY(n): wait `n` cycles (R71). -/
  | dly (n : Count)
  /-- ADC(ch): request a conversion and wait for it (R72). -/
  | adc (ch : Axis)
  /-- BTNCAP: capture the synchronized button level (R73). -/
  | btncap
  /-- COMMIT: classify and commit a sample (42_input.md R97). -/
  | commit
  /-- LCLR: clear both edge latches (42_input.md R98). -/
  | lclr
  /-- SETINIT: set INIT_DONE (41_display.md R82). -/
  | setinit
  deriving DecidableEq, Repr

/-- The state of CCUIO at the start of a cycle. The last three fields are the model's own (log entries 1 and 2). -/
structure State where
  /-- DATA (10_state.md R18). -/
  data : Byte
  /-- ERRCODE (R20). -/
  errcode : Byte
  /-- XRAW (R21). -/
  xraw : Byte
  /-- YRAW (R22). -/
  yraw : Byte
  /-- XCLS, the snapshot in CLASS[1:0] (R23). -/
  xcls : AxisClass
  /-- YCLS, the snapshot in CLASS[3:2] (R23). -/
  ycls : AxisClass
  /-- EVENT[0], XPOS (R24). -/
  evXPos : Bool
  /-- EVENT[1], XNEG. -/
  evXNeg : Bool
  /-- EVENT[2], YPOS. -/
  evYPos : Bool
  /-- EVENT[3], YNEG. -/
  evYNeg : Bool
  /-- EVENT[4], BPRESS. -/
  evBPress : Bool
  /-- BUSY, STATUS[0] (R19, R31). -/
  busy : Bool
  /-- INIT_DONE, STATUS[1] (R19, R33). -/
  initDone : Bool
  /-- VALID, STATUS[3] (R19, R33). -/
  valid : Bool
  /-- CUR, the accepted command byte (R31). -/
  cur : Byte
  /-- OPR, the captured operand (R31). -/
  opr : Byte
  /-- seq, the remaining micro-ops, the one in progress first (R31). -/
  seq : List MicroOp
  /-- WCNT, the cycles spent in the head micro-op (R31). -/
  wcnt : Count
  /-- LX, the X edge latch (R27). -/
  lx : LatchVal
  /-- LY, the Y edge latch (R27). -/
  ly : LatchVal
  /-- HX, the X holdoff counter (R28). -/
  hx : Count
  /-- HY, the Y holdoff counter (R28). -/
  hy : Count
  /-- HB, the button holdoff counter (R28). -/
  hb : Count
  /-- BPREV, the button level of the last completed SAMPLE, 1 = released (R29). -/
  bprev : Bool
  /-- SYNC1, first synchronizer stage (R30). -/
  sync1 : Bool
  /-- SYNC2, second synchronizer stage (R30). -/
  sync2 : Bool
  /-- XS, the X conversion of the SAMPLE in progress (R32). -/
  xs : Byte
  /-- YS, the Y conversion of the SAMPLE in progress (R32). -/
  ys : Byte
  /-- BS, the button level of the SAMPLE in progress (R32). -/
  bs : Bool
  /-- MODEL: the parameters of this instance (00_scope.md R8). No step writes them. -/
  par : Params
  /-- MODEL: the inputs of the coming cycles, oldest first. Where it is empty, a cycle takes a free draw. -/
  env : List Inputs
  /-- MODEL: how many cycles have run, which numbers the free draws. -/
  clock : Nat
  deriving DecidableEq, Repr

/-- Why a cycle could end in a fault. There is no such reason: CCUIO does not trap, its errors are codes recorded in
ERRCODE and every cycle has a next state (60_exceptions.md, introduction; 40_sequencer.md R63). Safe: nothing is cut off. -/
inductive Fault where
  deriving DecidableEq, Repr

/-- Why a step could be refused. -/
inductive Refusal where
  /-- Raised by an arm of `exec` whose command has no meaning yet; no arm raises it in this model. Safe: it cuts a run
  off. -/
  | notModelled (mnemonic : String)
  deriving DecidableEq, Repr

/-- The reset state of the instance with parameters `p`: every element at the value of 10_state.md R35, and nothing
placed on the inputs. -/
def State.resetWith (p : Params) : State :=
  { data := 0x00#8, errcode := 0x00#8, xraw := 0x00#8, yraw := 0x00#8, xcls := .cen, ycls := .cen,
    evXPos := false, evXNeg := false, evYPos := false, evYNeg := false, evBPress := false,
    busy := false, initDone := false, valid := false, cur := 0x00#8, opr := 0x00#8, seq := [], wcnt := 0#24,
    lx := .center, ly := .center, hx := 0#24, hy := 0#24, hb := 0#24, bprev := true, sync1 := true, sync2 := true,
    xs := 0x00#8, ys := 0x00#8, bs := true, par := p, env := [], clock := 0 }

/-- The machine right after reset (10_state.md R35; 70_reset_and_hazards.md R123), its parameters the free ones. -/
def State.reset : State :=
  State.resetWith Config.params

end Sys2Proof.Machine
end

