-- ==== Sys2Proof/Machine/Constants.lean ====
section
/-! DEFINITION. The constants of 00_scope.md R8 that every instance shares. The four thresholds are the source's; the
nibbles and display bytes are the spec's decisions from general knowledge (93_implementation_defined.md U18, U19). -/

namespace Sys2Proof.Machine

/-- TH_NEG: a reading at or below it is Negative. -/
def thNeg : Nat := 50

/-- TH_CLO: lower bound of the center band, inclusive. -/
def thCLo : Nat := 110

/-- TH_CHI: upper bound of the center band, exclusive. -/
def thCHi : Nat := 140

/-- TH_POS: a reading at or above it is Positive. -/
def thPos : Nat := 180

/-- NIB_8BIT: the nibble INIT sends three times. -/
def nib8Bit : Nibble := 0x3#4

/-- NIB_4BIT: the final 4-bit-mode nibble. -/
def nib4Bit : Nibble := 0x2#4

/-- C_FUNCSET: function set, 4-bit, 2-line, 5×8. -/
def cFuncSet : Byte := 0x28#8

/-- C_DISPON: display on, cursor off, blink off. -/
def cDispOn : Byte := 0x0C#8

/-- C_ENTRY: entry mode, auto-increment, no shift. -/
def cEntry : Byte := 0x06#8

/-- C_CLEAR: clear display. -/
def cClear : Byte := 0x01#8

/-- C_LINE2: move the cursor to the start of line 2. -/
def cLine2 : Byte := 0xC0#8

/-- CH_NL: the newline character. -/
def chNl : Byte := 0x0A#8

/-- BW_BL: bus word bit 3, the backlight, always 1 (30_encoding.md R57). -/
def bwBl : BitVec 1 := 1#1

/-- BW_B1: bus word bit 1, always 0 (30_encoding.md R57). -/
def bwB1 : BitVec 1 := 0#1

/-- The address of CMD (10_state.md R16). -/
def addrCmd : HostAddr := 0x0#4

/-- The address of DATA. -/
def addrData : HostAddr := 0x1#4

/-- The address of STATUS. -/
def addrStatus : HostAddr := 0x2#4

/-- The address of ERRCODE. -/
def addrErrcode : HostAddr := 0x3#4

/-- The address of XRAW. -/
def addrXraw : HostAddr := 0x4#4

/-- The address of YRAW. -/
def addrYraw : HostAddr := 0x5#4

/-- The address of CLASS. -/
def addrClass : HostAddr := 0x6#4

/-- The address of EVENT. -/
def addrEvent : HostAddr := 0x7#4

/-- The address of HOLD. -/
def addrHold : HostAddr := 0x8#4

end Sys2Proof.Machine
end

