-- ==== Sys2Proof/Machine/Flags.lean ====
section
/-! DEFINITION. The flag and code computations: the codes of classes, latches and errors (30_encoding.md R59, R60), the
register views STATUS, CLASS, EVENT and HOLD (10_state.md R19, R23 to R25), and how ERRCODE is settled
(60_exceptions.md R101, 40_sequencer.md R77). -/

namespace Sys2Proof.Machine

/-- The 2-bit code of an axis class (30_encoding.md R59). -/
def AxisClass.code : AxisClass → BitVec 2
  | .cen => 0b00#2
  | .pos => 0b01#2
  | .neg => 0b10#2
  | .dead => 0b11#2

/-- The 2-bit code of a latch value (30_encoding.md R59). -/
def LatchVal.code : LatchVal → BitVec 2
  | .center => 0b00#2
  | .pos => 0b01#2
  | .neg => 0b10#2

/-- ERRCODE with no error recorded (30_encoding.md R60). -/
def errNone : Byte := 0x00#8

/-- The code of an error (30_encoding.md R60). -/
def ErrCode.code : ErrCode → Byte
  | .eIllegalCmd => 0x01#8
  | .eBusy => 0x02#8
  | .eNotInit => 0x03#8
  | .eReinit => 0x04#8
  | .eBusNack => 0x05#8
  | .eBusTimeout => 0x06#8
  | .eAdcTimeout => 0x07#8

/-- The bus failures, which also clear INIT_DONE (60_exceptions.md R106, R107; 40_sequencer.md R75). -/
def ErrCode.busFailure : ErrCode → Bool
  | .eBusNack => true
  | .eBusTimeout => true
  | _ => false

/-- `raise E` against a code already there: the first error since the last clear is kept (60_exceptions.md R101). -/
def raise (code : Byte) : Option ErrCode → Byte
  | none => code
  | some e => if code = errNone then e.code else code

/-- ERRCODE after a cycle (40_sequencer.md R77): the host's clear first, then the sequencer's error, then the error of a
refused CMD write. -/
def settleErr (code : Byte) (hostClears : Bool) (sequencer refusal : Option ErrCode) : Byte :=
  raise (raise (if hostClears then errNone else code) sequencer) refusal

/-- STATUS.ERR, a view of ERRCODE (10_state.md R19, R33). -/
def State.err (s : State) : Bool :=
  s.errcode != errNone

/-- STATUS (10_state.md R19): bits 7:4 zero, VALID, ERR, INIT_DONE, BUSY. -/
def State.statusByte (s : State) : Byte :=
  0#4 ++ BitVec.ofBool s.valid ++ BitVec.ofBool s.err ++ BitVec.ofBool s.initDone ++ BitVec.ofBool s.busy

/-- CLASS (10_state.md R23): YLAT, XLAT, YCLS, XCLS. -/
def State.classByte (s : State) : Byte :=
  s.ly.code ++ s.lx.code ++ s.ycls.code ++ s.xcls.code

/-- EVENT (10_state.md R24): bits 7:6 zero, BLEVEL, BPRESS, YNEG, YPOS, XNEG, XPOS. -/
def State.eventByte (s : State) : Byte :=
  0#2 ++ BitVec.ofBool s.bprev ++ BitVec.ofBool s.evBPress ++ BitVec.ofBool s.evYNeg ++ BitVec.ofBool s.evYPos ++
    BitVec.ofBool s.evXNeg ++ BitVec.ofBool s.evXPos

/-- HOLD (10_state.md R25): bits 7:3 zero, then whether HB, HY and HX are nonzero. -/
def State.holdByte (s : State) : Byte :=
  0#5 ++ BitVec.ofBool (s.hb != 0#24) ++ BitVec.ofBool (s.hy != 0#24) ++ BitVec.ofBool (s.hx != 0#24)

end Sys2Proof.Machine
end

