-- ==== Sys2Proof/Machine/Operands.lean ====
section
/-! DEFINITION. The operand forms: the host access of a cycle (60_exceptions.md R114), the host registers as they read
(10_state.md R16 to R26), the operand byte of a command and its two nibbles (30_encoding.md R53, R58). -/

namespace Sys2Proof.Machine

/-- The host access of a cycle (40_sequencer.md R63). -/
inductive HostAccess where
  | idle
  | read (a : HostAddr)
  | write (a : HostAddr) (v : Byte)
  deriving DecidableEq, Repr

/-- The host access the host port's signals stand for (60_exceptions.md R114). -/
def hostAccess (i : Inputs) : HostAccess :=
  if i.hEn then (if i.hWe then .write i.haddr i.hwdata else .read i.haddr) else .idle

/-- The inputs `i` with the host port's signals set to make the access `a` (60_exceptions.md R114). -/
def withAccess (i : Inputs) : HostAccess → Inputs
  | .idle => { i with hEn := false }
  | .read a => { i with hEn := true, hWe := false, haddr := a }
  | .write a v => { i with hEn := true, hWe := true, haddr := a, hwdata := v }

/-- `MemRead(a, 1)`: the host register at `a`, as it stands at the start of the cycle (20_memory.md R36; 10_state.md R16).
CMD reads 0x00 (R17), and so do the reserved addresses (R26). -/
def State.readReg (s : State) (a : HostAddr) : Byte :=
  if a = addrData then s.data
  else if a = addrStatus then s.statusByte
  else if a = addrErrcode then s.errcode
  else if a = addrXraw then s.xraw
  else if a = addrYraw then s.yraw
  else if a = addrClass then s.classByte
  else if a = addrEvent then s.eventByte
  else if a = addrHold then s.holdByte
  else 0x00#8

/-- The operand a command captures at acceptance: DATA at the start of the cycle (40_sequencer.md R66). -/
def State.operand (s : State) : Byte :=
  s.data

/-- `b[7:4]`, sent first (20_memory.md R41). -/
def hiNibble (b : Byte) : Nibble :=
  b.extractLsb' 4 4

/-- `b[3:0]`, sent second (20_memory.md R41). -/
def loNibble (b : Byte) : Nibble :=
  b.extractLsb' 0 4

end Sys2Proof.Machine
end

