-- ==== Sys2Proof/Machine/Framer.lean ====
section
/-! DEFINITION. The LCDC framer (41_display.md R79, R80; 30_encoding.md R57, R58) and the micro-op list of each command
(40_sequencer.md R67). -/

namespace Sys2Proof.Machine

/-- A bus word in format BW8 (30_encoding.md R57): the nibble, backlight, enable, the zero bit, register select. -/
def busWord (n : Nibble) (en rs : BitVec 1) : Byte :=
  n ++ bwBl ++ en ++ bwB1 ++ rs

/-- `[DLY(n)]`, left out when `n` is 0 (40_sequencer.md R71; 00_scope.md R9). -/
def delay (n : Count) : List MicroOp :=
  if n = 0#24 then [] else [.dly n]

/-- NIB(n, rs), a nibble transfer (41_display.md R79). -/
def nib (p : Params) (n : Nibble) (rs : BitVec 1) : List MicroOp :=
  [.bw (busWord n 0#1 rs), .bw (busWord n 1#1 rs)] ++ delay p.tEn ++ [.bw (busWord n 0#1 rs)]

/-- BYTE(b, rs), a byte transfer: high nibble, then low nibble (41_display.md R80). -/
def byteSeq (p : Params) (b : Byte) (rs : BitVec 1) : List MicroOp :=
  nib p (hiNibble b) rs ++ nib p (loNibble b) rs

/-- INITSEQ (41_display.md R82). -/
def progInit (p : Params) : List MicroOp :=
  delay p.tPowerOn
    ++ nib p nib8Bit 0#1 ++ delay p.tInit1
    ++ nib p nib8Bit 0#1 ++ delay p.tInit2
    ++ nib p nib8Bit 0#1 ++ delay p.tInit3
    ++ nib p nib4Bit 0#1
    ++ byteSeq p cFuncSet 0#1
    ++ byteSeq p cDispOn 0#1
    ++ byteSeq p cEntry 0#1
    ++ byteSeq p cClear 0#1
    ++ delay p.tClear
    ++ [.setinit]

/-- CLEAR's list (41_display.md R83). -/
def progClear (p : Params) : List MicroOp :=
  byteSeq p cClear 0#1 ++ delay p.tClear

/-- WRCMD's list (41_display.md R84). -/
def progWrcmd (p : Params) (d : Byte) : List MicroOp :=
  byteSeq p d 0#1

/-- WRDATA's list (41_display.md R85): the newline is not mapped. -/
def progWrdata (p : Params) (d : Byte) : List MicroOp :=
  byteSeq p d 1#1

/-- PUTC's list (41_display.md R86): the newline becomes the move to line 2. -/
def progPutc (p : Params) (d : Byte) : List MicroOp :=
  if d = chNl then byteSeq p cLine2 0#1 else byteSeq p d 1#1

/-- SAMPLE's list (42_input.md R97). -/
def progSample : List MicroOp :=
  [.adc .x, .adc .y, .btncap, .commit]

/-- LATCHCLR's list (42_input.md R98). -/
def progLatchclr : List MicroOp :=
  [.lclr]

/-- `prog(c, d)`, the table of 40_sequencer.md R67. -/
def prog (p : Params) (d : Byte) : Instr → List MicroOp
  | .init => progInit p
  | .clear => progClear p
  | .wrcmd => progWrcmd p d
  | .wrdata => progWrdata p d
  | .putc => progPutc p d
  | .sample => progSample
  | .latchclr => progLatchclr

end Sys2Proof.Machine
end

