-- ==== Sys2Proof/Machine/Sampler.lean ====
section
/-! DEFINITION. The joystick sampler's and the button detector's pure functions, and the SAMPLE commit
(42_input.md R90 to R97). -/

namespace Sys2Proof.Machine

/-- A direction an axis can fire (42_input.md R91). -/
inductive Dir where
  | pos
  | neg
  deriving DecidableEq, Repr

/-- The latch value that remembers a direction (30_encoding.md R59: the same codes). -/
def Dir.latch : Dir → LatchVal
  | .pos => .pos
  | .neg => .neg

/-- The direction a class asks for, if any. -/
def AxisClass.dir? : AxisClass → Option Dir
  | .pos => some .pos
  | .neg => some .neg
  | .cen => none
  | .dead => none

/-- `cls(v)`, the threshold classifier (42_input.md R90). -/
def cls (v : Byte) : AxisClass :=
  if v.toNat ≤ thNeg then .neg
  else if thCLo ≤ v.toNat ∧ v.toNat < thCHi then .cen
  else if thPos ≤ v.toNat then .pos
  else .dead

/-- The result of the axis action rule: class, fired direction, new latch, whether the holdoff is loaded. -/
structure AxisResult where
  cls : AxisClass
  fired : Option Dir
  latch : LatchVal
  load : Bool
  deriving DecidableEq, Repr

/-- `axis(v, L, H)`, the axis action rule (42_input.md R91). -/
def axisRule (v : Byte) (l : LatchVal) (h : Count) : AxisResult :=
  if h ≠ 0#24 then { cls := cls v, fired := none, latch := l, load := false }
  else
    match (cls v).dir? with
    | some d =>
      if l ≠ d.latch then { cls := cls v, fired := some d, latch := d.latch, load := true }
      else { cls := cls v, fired := none, latch := l, load := false }
    | none =>
      if cls v = .cen then { cls := cls v, fired := none, latch := .center, load := false }
      else { cls := cls v, fired := none, latch := l, load := false }

/-- `press`: a falling edge of the button (42_input.md R95). Levels: 1 = released. -/
def press (bprev bs : Bool) : Bool :=
  bprev && !bs

/-- `fireB`: a press outside the button holdoff (42_input.md R95, R96). -/
def fireButton (bprev bs : Bool) (hb : Count) : Bool :=
  press bprev bs && hb == 0#24

/-- COMMIT's writes, every one reading the start-of-cycle state `s` (42_input.md R97). `acc` carries what else the cycle
writes: a holdoff counter that is not loaded keeps its decremented value. -/
def commitSample (s acc : State) : State :=
  let ax := axisRule s.xs s.lx s.hx
  let ay := axisRule s.ys s.ly s.hy
  let fireB := fireButton s.bprev s.bs s.hb
  { acc with
    xraw := s.xs, yraw := s.ys, xcls := ax.cls, ycls := ay.cls, lx := ax.latch, ly := ay.latch,
    evXPos := ax.fired == some .pos, evXNeg := ax.fired == some .neg,
    evYPos := ay.fired == some .pos, evYNeg := ay.fired == some .neg, evBPress := fireB,
    bprev := s.bs,
    hx := if ax.load then s.par.axisHoldoff else acc.hx,
    hy := if ay.load then s.par.axisHoldoff else acc.hy,
    hb := if fireB then s.par.btnHoldoff else acc.hb,
    valid := true }

end Sys2Proof.Machine
end

