-- ==== Sys2Proof/Machine/Ops.lean ====
section
/-! DEFINITION. The shared operations of one cycle (40_sequencer.md R63 to R77): the inputs, the per-cycle updates, the
sequencer with its pop and its abort, raising and clearing an error (CCUIO's only exception and return,
60_exceptions.md R101 and R111), the host's writes, command acceptance, reset. Every part reads the start-of-cycle state
`s` and writes into `acc`, so the writes of one cycle are simultaneous (00_scope.md R10). -/

namespace Sys2Proof.Machine

/-- The inputs of the coming cycle: the oldest placed ones, else a free draw (log entry 2). -/
def State.inputs (s : State) : Inputs :=
  match s.env with
  | i :: _ => i
  | [] => Config.freeInputs s.clock

/-- `s` with the inputs `env` placed for the coming cycles. -/
def State.withEnv (s : State) (env : List Inputs) : State :=
  { s with env := env }

/-- `dec(h)`, the saturating decrement (00_scope.md R10). -/
def dec (h : Count) : Count :=
  if h = 0#24 then 0#24 else h - 1#24

/-- `min(w + 1, 2^24 - 1)`: WCNT's increment saturates (40_sequencer.md R69; 42_input.md R99). -/
def satInc (w : Count) : Count :=
  if w = BitVec.allOnes 24 then w else w + 1#24

/-- The per-cycle updates (40_sequencer.md R64), and the model's own move to the next cycle's inputs. -/
def perCycle (s : State) : State :=
  { s with
    sync1 := s.inputs.btnN, sync2 := s.sync1, hx := dec s.hx, hy := dec s.hy, hb := dec s.hb,
    env := s.env.tail, clock := s.clock + 1 }

/-- What a micro-op does at the edge: keep counting, end, or end the command with an error. -/
inductive Verdict where
  | stay
  | pop
  | abort (e : ErrCode)
  deriving DecidableEq, Repr

/-- A wait with no response this cycle: time out after P_WAIT_TIMEOUT cycles, never where it is 0 (40_sequencer.md R69,
R70, R72). The comparison is exact: nothing wraps. -/
def waitVerdict (s : State) (e : ErrCode) : Verdict :=
  if s.par.waitTimeout ≠ 0#24 ∧ s.par.waitTimeout.toNat ≤ s.wcnt.toNat + 1 then .abort e else .stay

/-- The micro-op in progress at the edge (40_sequencer.md R69 to R73). A response wins over a timeout
(60_exceptions.md R109). -/
def uopVerdict (s : State) : MicroOp → Verdict
  | .bw _ =>
    if s.inputs.btDone then (if s.inputs.btOk then .pop else .abort .eBusNack)
    else waitVerdict s .eBusTimeout
  | .dly n => if s.wcnt.toNat + 1 = n.toNat then .pop else .stay
  | .adc _ => if s.inputs.adcDone then .pop else waitVerdict s .eAdcTimeout
  | .btncap => .pop
  | .commit => .pop
  | .lclr => .pop
  | .setinit => .pop

/-- What a micro-op writes as it ends (40_sequencer.md R72, R73; 41_display.md R82; 42_input.md R97, R98). -/
def uopEffect (s : State) (u : MicroOp) (acc : State) : State :=
  match u with
  | .bw _ => acc
  | .dly _ => acc
  | .adc .x => { acc with xs := s.inputs.adcData }
  | .adc .y => { acc with ys := s.inputs.adcData }
  | .btncap => { acc with bs := s.sync2 }
  | .commit => commitSample s acc
  | .lclr => { acc with lx := .center, ly := .center }
  | .setinit => { acc with initDone := true }

/-- "pop" (40_sequencer.md R74): the micro-ops `rest` remain; with none, the command is complete. -/
def popSeq (rest : List MicroOp) (acc : State) : State :=
  { acc with seq := rest, wcnt := 0#24, busy := !rest.isEmpty }

/-- `abort(E)` (40_sequencer.md R75), but for the recording of the code, which `settleErr` does. -/
def abortSeq (e : ErrCode) (acc : State) : State :=
  { acc with seq := [], wcnt := 0#24, busy := false, initDone := acc.initDone && !e.busFailure }

/-- The sequencer step of a cycle (40_sequencer.md R63 part 2). An empty list while BUSY = 1 ends the command at the next
edge (R66). -/
def seqStep (s acc : State) : State :=
  if s.busy then
    match s.seq with
    | [] => popSeq [] acc
    | u :: rest =>
      match uopVerdict s u with
      | .stay => { acc with wcnt := satInc s.wcnt }
      | .pop => popSeq rest (uopEffect s u acc)
      | .abort e => abortSeq e acc
  else acc

/-- The error the sequencer raises this cycle, if any (40_sequencer.md R75). -/
def seqRaise (s : State) : Option ErrCode :=
  if s.busy then
    match s.seq with
    | [] => none
    | u :: _ =>
      match uopVerdict s u with
      | .abort e => some e
      | _ => none
  else none

/-- A cycle without an accepted command (40_sequencer.md R63): per-cycle updates, sequencer, then ERRCODE settled from the
host's clear, the sequencer's error and the error of a refused CMD write (R77). -/
def cycle (s : State) (hostClears : Bool) (refusal : Option ErrCode) : State :=
  { seqStep s (perCycle s) with errcode := settleErr s.errcode hostClears (seqRaise s) refusal }

/-- A cycle with a host access other than a write to CMD. A write to DATA sets it (10_state.md R18), a write to ERRCODE
clears it, whatever the value (R20); a read changes nothing, and a write elsewhere is ignored (R26). -/
def registerCycle (s : State) (a : HostAccess) : State :=
  match a with
  | .idle => cycle s false none
  | .read _ => cycle s false none
  | .write a v =>
    if a = addrData then { cycle s false none with data := v }
    else if a = addrErrcode then cycle s true none
    else cycle s false none

/-- Acceptance's writes (40_sequencer.md R66). -/
def accept (s : State) (c : Byte) (uops : List MicroOp) (acc : State) : State :=
  { acc with busy := true, cur := c, opr := s.operand, seq := uops, wcnt := 0#24 }

/-- A cycle in which the host writes `c` to CMD (40_sequencer.md R66; check order of 60_exceptions.md R105): refused with
E_BUSY while BUSY = 1, else refused with the error `gate` names, else accepted with the micro-ops `uops`. -/
def commandCycle (s : State) (c : Byte) (gate : Option ErrCode) (uops : List MicroOp) : State :=
  if s.busy then cycle s false (some .eBusy)
  else
    match gate with
    | some e => cycle s false (some e)
    | none => accept s c uops (cycle s false none)

/-- The gate of INIT: refused with E_REINIT once INIT_DONE = 1 (60_exceptions.md R104). -/
def gateReinit (s : State) : Option ErrCode :=
  if s.initDone then some .eReinit else none

/-- The gate of CLEAR, WRCMD, WRDATA and PUTC: refused with E_NOT_INIT until INIT_DONE = 1 (60_exceptions.md R104). -/
def gateNotInit (s : State) : Option ErrCode :=
  if s.initDone then none else some .eNotInit

/-- A cycle in which the host writes to CMD a byte that is no command (60_exceptions.md R102, R105). -/
def illegalCycle (s : State) (c : Byte) : State :=
  commandCycle s c (some .eIllegalCmd) []

/-- A reset edge (70_reset_and_hazards.md R122): every element takes its reset value, whatever the other inputs. The
instance's parameters stay, and the model moves to the next cycle's inputs. -/
def resetCycle (s : State) : State :=
  { State.resetWith s.par with env := s.env.tail, clock := s.clock + 1 }

/-- What a cycle is to run. -/
inductive Fetched where
  /-- A reset edge. -/
  | reset
  /-- A host write to CMD of a command's byte. -/
  | command (i : Instr)
  /-- A host write to CMD of any other byte. -/
  | illegal (c : Byte)
  /-- No write to CMD. -/
  | other (a : HostAccess)
  deriving DecidableEq, Repr

/-- Read from the cycle's inputs what it is to run (40_sequencer.md R63): reset wins over every other input, and a write
to CMD is decoded. -/
def fetch (s : State) : Fetched :=
  if s.inputs.rst then .reset
  else
    match hostAccess s.inputs with
    | .write a v =>
      if a = addrCmd then
        match decode v with
        | .ok i => .command i
        | .error _ => .illegal v
      else .other (.write a v)
    | .read a => .other (.read a)
    | .idle => .other .idle

/-- `s` with the host port of its coming cycle set to write `c` to CMD, and no reset in it. Where no inputs are placed,
the other signals are the quiet ones (log entry 3). -/
def offerCommand (s : State) (c : Byte) : State :=
  match s.env with
  | i :: rest => s.withEnv ({ withAccess i (.write addrCmd c) with rst := false } :: rest)
  | [] => s.withEnv [{ withAccess Inputs.quiet (.write addrCmd c) with rst := false }]

end Sys2Proof.Machine
end

