-- ==== Sys2Proof/Machine/Display.lean ====
section
/-! DEFINITION. The display commands INIT, CLEAR, WRCMD, WRDATA and PUTC (41_display.md R82 to R86), each as the cycle in
which the host writes its byte to CMD (40_sequencer.md R66). The sequencer performs the accepted list in the cycles that
follow. The other inputs of the cycle act as in every cycle; the meaning does not look at `rst`, since a reset edge runs
no command (40_sequencer.md R63). -/

namespace Sys2Proof.Machine

/-- INIT (41_display.md R82): DATA is ignored but captured; refused with E_REINIT where INIT_DONE = 1. -/
def execInit (s : State) : Host.Outcome State Fault Refusal :=
  .next (commandCycle s (encode .init) (gateReinit s) (progInit s.par))

/-- CLEAR (41_display.md R83): the clear-display byte, then its wait. -/
def execClear (s : State) : Host.Outcome State Fault Refusal :=
  .next (commandCycle s (encode .clear) (gateNotInit s) (progClear s.par))

/-- WRCMD (41_display.md R84): DATA as a display command, unchecked, no delay after it. -/
def execWrcmd (s : State) : Host.Outcome State Fault Refusal :=
  .next (commandCycle s (encode .wrcmd) (gateNotInit s) (progWrcmd s.par s.operand))

/-- WRDATA (41_display.md R85): DATA as character data, the newline not mapped. -/
def execWrdata (s : State) : Host.Outcome State Fault Refusal :=
  .next (commandCycle s (encode .wrdata) (gateNotInit s) (progWrdata s.par s.operand))

/-- PUTC (41_display.md R86): DATA as a character, 0x0A mapped to the move to line 2. -/
def execPutc (s : State) : Host.Outcome State Fault Refusal :=
  .next (commandCycle s (encode .putc) (gateNotInit s) (progPutc s.par s.operand))

end Sys2Proof.Machine
end

