-- ==== Sys2Proof/Machine/Input.lean ====
section
/-! DEFINITION. The input commands SAMPLE and LATCHCLR (42_input.md R97, R98), each as the cycle in which the host writes
its byte to CMD (40_sequencer.md R66). Neither needs INIT_DONE (30_encoding.md R54). -/

namespace Sys2Proof.Machine

/-- SAMPLE (42_input.md R97): one tick. DATA is ignored but captured. -/
def execSample (s : State) : Host.Outcome State Fault Refusal :=
  .next (commandCycle s (encode .sample) none progSample)

/-- LATCHCLR (42_input.md R98): reset both edge latches. -/
def execLatchclr (s : State) : Host.Outcome State Fault Refusal :=
  .next (commandCycle s (encode .latchclr) none progLatchclr)

end Sys2Proof.Machine
end

