-- ==== Sys2Proof/Machine/Dispatch.lean ====
section
/-! DEFINITION. One arm per command: its meaning. -/

namespace Sys2Proof.Machine

def exec (i : Instr) (s : State) : Host.Outcome State Fault Refusal :=
  match i with
  | .init => Sys2Proof.Machine.execInit s
  | .clear => Sys2Proof.Machine.execClear s
  | .wrcmd => Sys2Proof.Machine.execWrcmd s
  | .wrdata => Sys2Proof.Machine.execWrdata s
  | .putc => Sys2Proof.Machine.execPutc s
  | .sample => Sys2Proof.Machine.execSample s
  | .latchclr => Sys2Proof.Machine.execLatchclr s

end Sys2Proof.Machine
end

