-- ==== Sys2Proof/Machine/Step.lean ====
section
/-! DEFINITION. One step is one `clk` cycle (40_sequencer.md R63). -/

namespace Sys2Proof.Machine

/-- The step of one cycle: a reset edge, a host write to CMD, or any other cycle (40_sequencer.md R63, R66). -/
def step (s : State) : Host.Outcome State Fault Refusal :=
  match fetch s with
  | .reset => .next (resetCycle s)
  | .command i => exec i s
  | .illegal c => .next (illegalCycle s c)
  | .other a => .next (registerCycle s a)

/-- `s` with the command byte of the table word `w` on the host port of its coming cycle: CCUIO runs no stored program,
a command comes from the host's write to CMD (log entry 3). -/
def State.withFetchWord (s : State) (nbits w : Nat) : State :=
  offerCommand s (commandByte nbits w)

end Sys2Proof.Machine
end

