-- ==== Sys2Proof/Machine/Ports.lean ====
section
/-! DEFINITION. The output ports (40_sequencer.md R65; 60_exceptions.md R112 to R114). Every output is a function of the
start-of-cycle state alone. -/

namespace Sys2Proof.Machine

/-- The bus word presented this cycle, if any: the head of seq while BUSY = 1 (40_sequencer.md R65). -/
def State.busWord? (s : State) : Option Byte :=
  if s.busy then
    match s.seq with
    | .bw w :: _ => some w
    | _ => none
  else none

/-- The axis whose conversion is requested this cycle, if any (40_sequencer.md R65). -/
def State.adcAxis? (s : State) : Option Axis :=
  if s.busy then
    match s.seq with
    | .adc ch :: _ => some ch
    | _ => none
  else none

/-- The channel number of an axis: 0 is X, 1 is Y (20_memory.md R38). -/
def Axis.channel : Axis → BitVec 1
  | .x => 0#1
  | .y => 1#1

/-- `bt_req`. -/
def State.btReq (s : State) : Bool :=
  s.busWord?.isSome

/-- `bt_addr`, always P_LCD_ADDR (20_memory.md R37). -/
def State.btAddr (s : State) : BusAddr :=
  s.par.lcdAddr

/-- `bt_data`: the bus word, 0x00 when `bt_req` = 0. -/
def State.btData (s : State) : Byte :=
  s.busWord?.getD 0x00#8

/-- `adc_req`. -/
def State.adcReq (s : State) : Bool :=
  s.adcAxis?.isSome

/-- `adc_ch`: the channel, 0 when `adc_req` = 0. -/
def State.adcCh (s : State) : BitVec 1 :=
  (s.adcAxis?.map Axis.channel).getD 0#1

/-- The output signals of one cycle. -/
structure Outputs where
  btReq : Bool
  btAddr : BusAddr
  btData : Byte
  adcReq : Bool
  adcCh : BitVec 1
  /-- `hrdata`, the register at `haddr` (20_memory.md R36); it means something only in a read cycle. -/
  hrdata : Byte
  deriving DecidableEq, Repr

/-- The outputs in state `s` with the host address `a` on the port. -/
def State.outputs (s : State) (a : HostAddr) : Outputs :=
  { btReq := s.btReq, btAddr := s.btAddr, btData := s.btData, adcReq := s.adcReq, adcCh := s.adcCh,
    hrdata := s.readReg a }

end Sys2Proof.Machine
end

