-- ==== Sys2Proof/Machine/HostAsm.lean ====
section
/-! DEFINITION. The host notation of 30_encoding.md R61 and R62 as data, what each operation puts on the host port
(60_exceptions.md R114), and how a host that runs such a program moves on from cycle to cycle. The host stays free
(00_scope.md R12): these are programs it may run, not a limit on it. -/

namespace Sys2Proof.Machine

/-- The operations of a host program: the two base operations, and `poll` (30_encoding.md R61). -/
inductive HostOp where
  /-- `hw REG, imm8`. -/
  | hw (a : HostAddr) (v : Byte)
  /-- `hr REG`. -/
  | hr (a : HostAddr)
  /-- `poll`: repeat `hr STATUS` until BUSY reads 0. -/
  | poll
  deriving DecidableEq, Repr

/-- The host access an operation makes in a cycle (30_encoding.md R61). -/
def HostOp.access : HostOp → HostAccess
  | .hw a v => .write a v
  | .hr a => .read a
  | .poll => .read addrStatus

/-- The expansion of a command mnemonic (30_encoding.md R61); `imm` is used by WRCMD, WRDATA and PUTC only. -/
def expand (imm : Byte) : Instr → List HostOp
  | .init => [.hw addrCmd 0x01#8, .poll]
  | .clear => [.hw addrCmd 0x02#8, .poll]
  | .wrcmd => [.hw addrData imm, .hw addrCmd 0x03#8, .poll]
  | .wrdata => [.hw addrData imm, .hw addrCmd 0x04#8, .poll]
  | .putc => [.hw addrData imm, .hw addrCmd 0x05#8, .poll]
  | .sample => [.hw addrCmd 0x11#8, .poll]
  | .latchclr => [.hw addrCmd 0x12#8, .poll]

/-- `PUTS "s"` (30_encoding.md R62; 41_display.md R87): one PUTC per character, in order. -/
def expandPuts (text : List Byte) : List HostOp :=
  text.flatMap (fun c => expand c .putc)

/-- `PUTSRAW "s"` (30_encoding.md R62): one WRDATA per character, in order. -/
def expandPutsRaw (text : List Byte) : List HostOp :=
  text.flatMap (fun c => expand c .wrdata)

/-- `NL` (30_encoding.md R62). -/
def expandNl : List HostOp :=
  expand 0x0A#8 .putc

/-- `LINE2` (30_encoding.md R62). -/
def expandLine2 : List HostOp :=
  expand 0xC0#8 .wrcmd

/-- `ERRCLR` (30_encoding.md R62). -/
def expandErrclr : List HostOp :=
  [.hw addrErrcode 0x00#8]

/-- `WAITIDLE` (30_encoding.md R62). -/
def expandWaitidle : List HostOp :=
  [.poll]

/-- The access of a host about to run `ops`; a host whose program is over makes none. -/
def hostDrives : List HostOp → HostAccess
  | [] => .idle
  | op :: _ => op.access

/-- What remains of a host program after a cycle that read `hrdata`: a poll stays while BUSY (bit 0) reads 1. -/
def hostAdvance (hrdata : Byte) : List HostOp → List HostOp
  | [] => []
  | .poll :: rest => if hrdata.getLsbD 0 then .poll :: rest else rest
  | _ :: rest => rest

/-- `s` with its coming cycle's inputs `pins`, the host port driven by the program `ops`. -/
def hostPlaces (ops : List HostOp) (pins : Inputs) (s : State) : State :=
  s.withEnv [withAccess pins (hostDrives ops)]

end Sys2Proof.Machine
end

