-- ==== Sys2Proof/Safety.lean ====
section
/-! DEFINITION. The terms claims about runs are stated in: running cycles, the bus word trace, and the invariant of
reachable states (42_input.md R100; 10_state.md R20, R24, R31; 40_sequencer.md R71). -/

namespace Sys2Proof.Machine

/-- `k` cycles from `s`. -/
def run : Nat → State → Host.Outcome State Fault Refusal
  | 0, s => .next s
  | k + 1, s =>
    match step s with
    | .next t => run k t
    | .fault f => .fault f
    | .refused r => .refused r

/-- A transaction that ends on the transport: the word and whether it was acknowledged (60_exceptions.md R112). -/
structure BusEvent where
  addr : BusAddr
  word : Byte
  ok : Bool
  deriving DecidableEq, Repr

/-- The transaction that ends in the coming cycle, if any. A response without a request is ignored (00_scope.md R14), and
in a reset cycle the transaction is left unfinished (70_reset_and_hazards.md R124). -/
def State.busEvent? (s : State) : Option BusEvent :=
  match s.busWord? with
  | some w => if s.inputs.btDone && !s.inputs.rst then some ⟨s.btAddr, w, s.inputs.btOk⟩ else none
  | none => none

/-- The transactions that end in the `k` cycles from `s`, in order: the bus word trace (00_scope.md R13). -/
def busTrace : Nat → State → List BusEvent
  | 0, _ => []
  | k + 1, s =>
    s.busEvent?.toList ++
      match step s with
      | .next t => busTrace k t
      | .fault _ => []
      | .refused _ => []

/-- The bus words of a micro-op list, in order. -/
def busWords : List MicroOp → List Byte
  | [] => []
  | .bw w :: rest => w :: busWords rest
  | _ :: rest => busWords rest

/-- The delay cycles of a micro-op list, added up. -/
def delayCycles : List MicroOp → Nat
  | [] => 0
  | .dly n :: rest => n.toNat + delayCycles rest
  | _ :: rest => delayCycles rest

/-- `p` holds in every state from which one of the `k` cycles starting at `s` runs. -/
def during : Nat → (State → Bool) → State → Bool
  | 0, _, _ => true
  | k + 1, p, s =>
    p s &&
      match step s with
      | .next t => during k p t
      | .fault _ => true
      | .refused _ => true

/-- How many of the `k` cycles from `s` start in a state with `p`. -/
def cyclesWith : Nat → (State → Bool) → State → Nat
  | 0, _, _ => 0
  | k + 1, p, s =>
    (if p s then 1 else 0) +
      match step s with
      | .next t => cyclesWith k p t
      | .fault _ => 0
      | .refused _ => 0

/-- No reset edge ends the cycle. -/
def State.noReset (s : State) : Bool :=
  !s.inputs.rst

/-- No reset edge, and no host write: the host is idle or reads. -/
def State.hostQuiet (s : State) : Bool :=
  !s.inputs.rst && !(s.inputs.hEn && s.inputs.hWe)

/-- No reset edge, and the transport acknowledges the word that is presented, if one is. Where none is presented nothing is
asked of it: `bt_done` belongs to a request (00_scope.md R14). -/
def State.busAnswersOk (s : State) : Bool :=
  !s.inputs.rst && (!s.btReq || (s.inputs.btDone && s.inputs.btOk))

/-- No reset edge, and the running command is neither refused by the transport nor past its wait bound
(40_sequencer.md R69, R72): the cycle does not abort it. -/
def State.noAbort (s : State) : Bool :=
  !s.inputs.rst
    && (!s.btReq || (if s.inputs.btDone then s.inputs.btOk
        else s.par.waitTimeout == 0#24 || decide (s.wcnt.toNat + 1 < s.par.waitTimeout.toNat)))
    && (!s.adcReq || s.inputs.adcDone
        || s.par.waitTimeout == 0#24 || decide (s.wcnt.toNat + 1 < s.par.waitTimeout.toNat))

/-- A wait with no response in the coming cycle has reached its bound, if it has one (40_sequencer.md R69, R72). -/
def State.waitExpires (s : State) : Prop :=
  s.par.waitTimeout ≠ 0#24 ∧ s.wcnt.toNat + 1 ≥ s.par.waitTimeout.toNat

/-- With the inputs `i` the micro-op `u` in progress ends its command with the error of code `code`: a refused bus word, a
bus word or a conversion without a response at the bound (40_sequencer.md R69, R72; 60_exceptions.md R106 to R108). -/
def State.failsWith (s : State) (u : MicroOp) (i : Inputs) (code : Byte) : Prop :=
  (∃ w, u = .bw w ∧ i.btDone = true ∧ i.btOk = false ∧ code = 0x05#8) ∨
    (∃ w, u = .bw w ∧ i.btDone = false ∧ s.waitExpires ∧ code = 0x06#8) ∨
    (∃ ch, u = .adc ch ∧ i.adcDone = false ∧ s.waitExpires ∧ code = 0x07#8)

/-- The coming cycle performs the micro-op `u`, and is no reset edge. -/
def State.performs (s : State) (u : MicroOp) : Bool :=
  !s.inputs.rst && s.busy && s.seq.head? == some u

/-- The coming cycle's commit reports an event of the X axis (42_input.md R91). -/
def State.firesX (s : State) : Bool :=
  s.performs .commit && (axisRule s.xs s.lx s.hx).fired.isSome

/-- The coming cycle's commit reports an event of the Y axis. -/
def State.firesY (s : State) : Bool :=
  s.performs .commit && (axisRule s.ys s.ly s.hy).fired.isSome

/-- The coming cycle's commit reports a button press (42_input.md R95). -/
def State.firesB (s : State) : Bool :=
  s.performs .commit && fireButton s.bprev s.bs s.hb

/-- `hi8(b, rs)` as 41_display.md R80 writes it. -/
def hi8 (b : Byte) (rs : Byte) : Byte :=
  (b &&& 0xF0#8) ||| 0x08#8 ||| rs

/-- `lo8(b, rs)` as 41_display.md R80 writes it. -/
def lo8 (b : Byte) (rs : Byte) : Byte :=
  ((b &&& 0x0F#8) <<< 4) ||| 0x08#8 ||| rs

/-- The six bus words of a byte, as 41_display.md R80 lists them. -/
def sixWords (b : Byte) (rs : Byte) : List Byte :=
  [hi8 b rs, hi8 b rs ||| 0x04#8, hi8 b rs, lo8 b rs, lo8 b rs ||| 0x04#8, lo8 b rs]

/-- The 36 bus words of INIT, as 41_display.md R82 lists them. -/
def initWords : List Byte :=
  [0x38#8, 0x3C#8, 0x38#8, 0x38#8, 0x3C#8, 0x38#8, 0x38#8, 0x3C#8, 0x38#8, 0x28#8, 0x2C#8, 0x28#8]
    ++ [0x28#8, 0x2C#8, 0x28#8, 0x88#8, 0x8C#8, 0x88#8] ++ [0x08#8, 0x0C#8, 0x08#8, 0xC8#8, 0xCC#8, 0xC8#8]
    ++ [0x08#8, 0x0C#8, 0x08#8, 0x68#8, 0x6C#8, 0x68#8] ++ [0x08#8, 0x0C#8, 0x08#8, 0x18#8, 0x1C#8, 0x18#8]

/-- What the sampler and the button detector hold, but for the free-running counters and the synchronizer, is the same
in both states. -/
def sameInputUnits (s t : State) : Prop :=
  t.xraw = s.xraw ∧ t.yraw = s.yraw ∧ t.xcls = s.xcls ∧ t.ycls = s.ycls ∧ t.evXPos = s.evXPos ∧ t.evXNeg = s.evXNeg ∧
    t.evYPos = s.evYPos ∧ t.evYNeg = s.evYNeg ∧ t.evBPress = s.evBPress ∧ t.valid = s.valid ∧ t.lx = s.lx ∧ t.ly = s.ly ∧
    t.bprev = s.bprev ∧ t.xs = s.xs ∧ t.ys = s.ys ∧ t.bs = s.bs

/-- Every state element of 10_state.md R35 stands at the value that rule's table gives. -/
def State.holdsResetValues (s : State) : Prop :=
  s.data = 0x00#8 ∧ s.errcode = 0x00#8 ∧ s.xraw = 0x00#8 ∧ s.yraw = 0x00#8 ∧ s.xcls.code = 0b00#2 ∧ s.ycls.code = 0b00#2 ∧
    s.evXPos = false ∧ s.evXNeg = false ∧ s.evYPos = false ∧ s.evYNeg = false ∧ s.evBPress = false ∧ s.busy = false ∧
    s.initDone = false ∧ s.valid = false ∧ s.cur = 0x00#8 ∧ s.opr = 0x00#8 ∧ s.seq = [] ∧ s.wcnt = 0#24 ∧
    s.lx.code = 0b00#2 ∧ s.ly.code = 0b00#2 ∧ s.hx = 0#24 ∧ s.hy = 0#24 ∧ s.hb = 0#24 ∧ s.bprev = true ∧
    s.sync1 = true ∧ s.sync2 = true ∧ s.xs = 0x00#8 ∧ s.ys = 0x00#8 ∧ s.bs = true

/-- A direction reported in EVENT is the one its axis's latch remembers (42_input.md R100). -/
def State.eventsAgree (s : State) : Prop :=
  (s.evXPos = true → s.lx = .pos) ∧ (s.evXNeg = true → s.lx = .neg) ∧ (s.evYPos = true → s.ly = .pos) ∧
    (s.evYNeg = true → s.ly = .neg)

/-- The micro-ops of a list that last one cycle whatever the environment does (40_sequencer.md R68). -/
def oneCycleOps : List MicroOp → Nat
  | [] => 0
  | .bw _ :: rest => oneCycleOps rest
  | .dly _ :: rest => oneCycleOps rest
  | .adc _ :: rest => oneCycleOps rest
  | _ :: rest => oneCycleOps rest + 1

/-- A bound on the cycles of a micro-op list whose waits are bounded by `p` cycles each (40_sequencer.md R69, R71, R72). -/
def waitBound (p : Nat) : List MicroOp → Nat
  | [] => 0
  | .bw _ :: rest => p + waitBound p rest
  | .adc _ :: rest => p + waitBound p rest
  | .dly n :: rest => n.toNat + waitBound p rest
  | _ :: rest => 1 + waitBound p rest

/-- A micro-op that a list of 40_sequencer.md R67 can hold: a bus word has bit 3 set and bit 1 clear
(30_encoding.md R57), and a delay is not 0 (R71). -/
def MicroOp.wellFormed : MicroOp → Bool
  | .bw w => w.getLsbD 3 && !w.getLsbD 1
  | .dly n => n != 0#24
  | _ => true

/-- The remaining list belongs to the command in CUR: it is the end of that command's own list, for the operand in OPR
(40_sequencer.md R76). -/
def State.seqFromProgram (s : State) : Prop :=
  ∃ i, decode s.cur = .ok i ∧ s.seq <:+ prog s.par s.opr i

/-- The invariant of reachable states. -/
structure State.Inv (s : State) : Prop where
  /-- seq is empty exactly when BUSY = 0 (10_state.md R31). -/
  busy_iff : s.busy = true ↔ s.seq ≠ []
  /-- A running command performs the end of its own list, strictly in order (40_sequencer.md R76). -/
  program : s.busy = true → s.seqFromProgram
  /-- INIT runs only with INIT_DONE = 0 and the other display commands only with INIT_DONE = 1
  (60_exceptions.md R104). -/
  initGate : s.busy = true → s.cur = encode .init → s.initDone = false
  displayGate : s.busy = true →
    (s.cur = encode .clear ∨ s.cur = encode .wrcmd ∨ s.cur = encode .wrdata ∨ s.cur = encode .putc) → s.initDone = true
  /-- A delay has not been overrun (40_sequencer.md R71). -/
  delayCount : ∀ n rest, s.busy = true → s.seq = .dly n :: rest → s.wcnt.toNat < n.toNat
  /-- A bounded wait has not been overrun (40_sequencer.md R69, R72). -/
  waitCount : s.par.waitTimeout ≠ 0#24 → s.busy = true → (s.btReq = true ∨ s.adcReq = true) →
    s.wcnt.toNat < s.par.waitTimeout.toNat
  /-- ERRCODE holds a code of 30_encoding.md R60. -/
  errCode : s.errcode.toNat ≤ 7
  /-- No axis reports both directions (10_state.md R24). -/
  eventX : ¬ (s.evXPos = true ∧ s.evXNeg = true)
  eventY : ¬ (s.evYPos = true ∧ s.evYNeg = true)
  /-- The holdoff counters stay within their parameters (42_input.md R100). -/
  holdX : s.hx.toNat ≤ s.par.axisHoldoff.toNat
  holdY : s.hy.toNat ≤ s.par.axisHoldoff.toNat
  holdB : s.hb.toNat ≤ s.par.btnHoldoff.toNat

end Sys2Proof.Machine
end

