-- ==== Sys2Proof/Certificates/Slice0/Obligations.lean ====
section
/-! DEFINITION. The statements about CCUIO, from the numbered rules of spec/. `perCycle s` is `s` with the per-cycle
updates of 40_sequencer.md R64; `Obligations.IdleCycle` spells it out. -/

open Sys2Proof Sys2Proof.Machine

/-! ### Commands and their encoding -/

/-- 30_encoding.md R53, R54: each command byte, written out as its group and operation bits, decodes to its command. -/
def Obligations.CommandBytesDecode : Prop :=
  decode 0b0000_0001#8 = .ok .init ∧ decode 0b0000_0010#8 = .ok .clear ∧ decode 0b0000_0011#8 = .ok .wrcmd ∧
    decode 0b0000_0100#8 = .ok .wrdata ∧ decode 0b0000_0101#8 = .ok .putc ∧ decode 0b0001_0001#8 = .ok .sample ∧
    decode 0b0001_0010#8 = .ok .latchclr

/-- 30_encoding.md R54, R56: decoding an encoded command gives it back, and a byte that decodes to a command is that
command's encoding; a command is well-formed. -/
def Obligations.DecodeEncodeAgree : Prop :=
  (∀ i : Instr, i.wellFormed = true ∧ decode (encode i) = .ok i) ∧ ∀ (c : Byte) (i : Instr), decode c = .ok i → c = encode i

/-- 30_encoding.md R54, R55: the bytes whose group and operation are in use are the commands; every other byte is
rejected by name, and there are 249 of them. -/
def Obligations.OtherBytesIllegal : Prop :=
  (∀ c : Byte, (∃ i, decode c = .ok i) ↔ (Cmd8.ofByte c).wellFormed = true) ∧
    (∀ c : Byte, c ∉ [0x01#8, 0x02#8, 0x03#8, 0x04#8, 0x05#8, 0x11#8, 0x12#8] → decode c = .error (.illegalCommand c)) ∧
    ((List.range 256).filter (fun n => decodeTableWord 8 n == none)).length = 249

/-- 30_encoding.md R57: format BW8, as a formula and bit by bit, and it has 64 values. -/
def Obligations.BusWordLayout : Prop :=
  (∀ (n : Nibble) (en rs : BitVec 1),
    busWord n en rs
      = (n.setWidth 8 <<< 4) ||| 0x08#8 ||| (en.setWidth 8 <<< 2) ||| rs.setWidth 8) ∧
  (∀ (n : Nibble) (en rs : BitVec 1),
    (busWord n en rs).extractLsb' 4 4 = n ∧ (busWord n en rs).getLsbD 3 = true ∧ (busWord n en rs).getLsbD 2 = en.getLsbD 0 ∧
      (busWord n en rs).getLsbD 1 = false ∧ (busWord n en rs).getLsbD 0 = rs.getLsbD 0) ∧
  ((List.range 256).filter (fun v => (BitVec.ofNat 8 v).getLsbD 3 && !(BitVec.ofNat 8 v).getLsbD 1)).length = 64

/-! ### What a cycle runs -/

/-- 40_sequencer.md R63, R66: a cycle without reset in which the host writes a command's byte to CMD runs that command.
Nothing stands around `exec`: a cycle is the whole step. -/
def Obligations.StepRunsDecodedCommand : Prop :=
  ∀ (s : State) (c : Byte) (i : Instr),
    s.inputs.rst = false → hostAccess s.inputs = .write 0x0#4 c → decode c = .ok i → step s = exec i s

/-- The byte of a command, placed for the coming cycle, is what that cycle runs, whatever inputs stood there. -/
def Obligations.PlacedCommandRuns : Prop :=
  ∀ (s : State) (i : Instr),
    decodeTableWord 8 (encode i).toNat = some i ∧
      step (s.withFetchWord 8 (encode i).toNat) = exec i (s.withFetchWord 8 (encode i).toNat)

/-- 40_sequencer.md R63: every cycle has a next state; CCUIO never traps. -/
def Obligations.EveryCycleHasNext : Prop :=
  (∀ s : State, ∃ t, step s = .next t) ∧ ∀ (i : Instr) (s : State), ∃ t, exec i s = .next t

/-- 10_state.md R35: the reset value of every state element, and the register reads after reset; a reset edge gives these
values from every state, whatever the other inputs are (70_reset_and_hazards.md R122), also in the middle of a command
(R124). The parameters of the instance stay. -/
def Obligations.ResetValues : Prop :=
  (∀ s : State, s.inputs.rst = true → ∃ t, step s = .next t ∧ t.holdsResetValues ∧ t.par = s.par) ∧
  State.reset.holdsResetValues ∧
  ∀ s : State, s.holdsResetValues →
    s.readReg 0x1#4 = 0x00#8 ∧ s.readReg 0x2#4 = 0x00#8 ∧ s.readReg 0x3#4 = 0x00#8 ∧ s.readReg 0x4#4 = 0x00#8 ∧
      s.readReg 0x5#4 = 0x00#8 ∧ s.readReg 0x6#4 = 0x00#8 ∧ s.readReg 0x7#4 = 0x20#8 ∧ s.readReg 0x8#4 = 0x00#8

/-- A cycle with BUSY = 0, no reset and no host write makes the per-cycle updates and nothing else (40_sequencer.md R63,
R64; 10_state.md R26): `perCycle s` in full. `env` and `clock` are the model's own fields (log entry 2). -/
def Obligations.IdleCycle : Prop :=
  (∀ s : State, s.hostQuiet = true → s.busy = false → step s = .next (perCycle s)) ∧
  ∀ s : State, perCycle s =
    { s with
      sync1 := s.inputs.btnN, sync2 := s.sync1,
      hx := if s.hx = 0#24 then 0#24 else s.hx - 1#24, hy := if s.hy = 0#24 then 0#24 else s.hy - 1#24,
      hb := if s.hb = 0#24 then 0#24 else s.hb - 1#24, env := s.env.tail, clock := s.clock + 1 }

/-- 40_sequencer.md R64: the updates of every cycle without reset, whatever the sequencer and the host do; a holdoff
counter is loaded instead where this cycle's SAMPLE commit reports an event of its unit. -/
def Obligations.PerCycleUpdates : Prop :=
  ∀ s t : State, s.inputs.rst = false → step s = .next t →
    t.sync1 = s.inputs.btnN ∧ t.sync2 = s.sync1 ∧
    t.hx = (if s.firesX then s.par.axisHoldoff else if s.hx = 0#24 then 0#24 else s.hx - 1#24) ∧
    t.hy = (if s.firesY then s.par.axisHoldoff else if s.hy = 0#24 then 0#24 else s.hy - 1#24) ∧
    t.hb = (if s.firesB then s.par.btnHoldoff else if s.hb = 0#24 then 0#24 else s.hb - 1#24)

/-! ### Host accesses -/

/-- 10_state.md R26, 40_sequencer.md R78: a read at any address, and a write to a read-only or reserved address, is the
same as no access in that cycle: it changes no state and raises no error, whatever the sequencer does. -/
def Obligations.ReadsAndIgnoredWritesChangeNothing : Prop :=
  ∀ (s : State) (i : Inputs) (rest : List Inputs) (a : HostAddr) (v : Byte), i.rst = false →
    step (s.withEnv (withAccess i (.read a) :: rest)) = step (s.withEnv (withAccess i .idle :: rest)) ∧
    (a ≠ 0x0#4 → a ≠ 0x1#4 → a ≠ 0x3#4 →
      step (s.withEnv (withAccess i (.write a v) :: rest)) = step (s.withEnv (withAccess i .idle :: rest)))

/-- 10_state.md R18: a host write to DATA sets it to the written byte, in any cycle and whatever the sequencer does, and
changes nothing else of what the cycle does without it; the sequencer never writes DATA; a read of address 0x1 returns
it. -/
def Obligations.DataWriteSetsData : Prop :=
  (∀ (s : State) (i : Inputs) (rest : List Inputs) (v : Byte), i.rst = false →
    ∃ u, step (s.withEnv (withAccess i .idle :: rest)) = .next u ∧ u.data = s.data ∧
      step (s.withEnv (withAccess i (.write 0x1#4 v) :: rest)) = .next { u with data := v }) ∧
  ∀ s : State, s.readReg 0x1#4 = s.data

/-- 10_state.md R20 with 40_sequencer.md R77: a host write of any value to ERRCODE clears it and changes nothing else;
an error the sequencer raises in that cycle is recorded after the clear. -/
def Obligations.ErrcodeWriteClears : Prop :=
  (∀ (s : State) (i : Inputs) (rest : List Inputs) (v : Byte), i.rst = false →
    ∃ u, step (({ s with errcode := 0x00#8 } : State).withEnv (withAccess i .idle :: rest)) = .next u ∧
      step (s.withEnv (withAccess i (.write 0x3#4 v) :: rest)) = .next u) ∧
  (∀ (s : State) (i : Inputs) (rest : List Inputs) (v : Byte), i.rst = false → s.busy = false →
    ∃ u, step (s.withEnv (withAccess i (.write 0x3#4 v) :: rest)) = .next u ∧ u.errcode = 0x00#8 ∧ u.statusByte.getLsbD 2 = false)

/-- 10_state.md R16 to R26: what each address reads as, bit by bit: STATUS, CLASS, EVENT and HOLD are views of the state,
CMD and the reserved addresses read 0x00. -/
def Obligations.RegisterViews : Prop :=
  ∀ s : State,
    s.readReg 0x0#4 = 0x00#8 ∧ s.readReg 0x1#4 = s.data ∧ s.readReg 0x3#4 = s.errcode ∧ s.readReg 0x4#4 = s.xraw ∧ s.readReg 0x5#4 = s.yraw ∧
    (∀ a : HostAddr, 0x9#4 ≤ a → s.readReg a = 0x00#8) ∧
    (s.readReg 0x2#4).getLsbD 0 = s.busy ∧ (s.readReg 0x2#4).getLsbD 1 = s.initDone ∧
    (s.readReg 0x2#4).getLsbD 2 = decide (s.errcode ≠ 0x00#8) ∧ (s.readReg 0x2#4).getLsbD 3 = s.valid ∧
    (s.readReg 0x2#4).extractLsb' 4 4 = 0#4 ∧
    (s.readReg 0x6#4).extractLsb' 0 2 = s.xcls.code ∧ (s.readReg 0x6#4).extractLsb' 2 2 = s.ycls.code ∧
    (s.readReg 0x6#4).extractLsb' 4 2 = s.lx.code ∧ (s.readReg 0x6#4).extractLsb' 6 2 = s.ly.code ∧
    (s.readReg 0x7#4).getLsbD 0 = s.evXPos ∧ (s.readReg 0x7#4).getLsbD 1 = s.evXNeg ∧ (s.readReg 0x7#4).getLsbD 2 = s.evYPos ∧
    (s.readReg 0x7#4).getLsbD 3 = s.evYNeg ∧ (s.readReg 0x7#4).getLsbD 4 = s.evBPress ∧ (s.readReg 0x7#4).getLsbD 5 = s.bprev ∧
    (s.readReg 0x7#4).extractLsb' 6 2 = 0#2 ∧
    (s.readReg 0x8#4).getLsbD 0 = decide (s.hx ≠ 0#24) ∧ (s.readReg 0x8#4).getLsbD 1 = decide (s.hy ≠ 0#24) ∧
    (s.readReg 0x8#4).getLsbD 2 = decide (s.hb ≠ 0#24) ∧ (s.readReg 0x8#4).extractLsb' 3 5 = 0#5

/-- 10_state.md R25: HOLD. -/
def Obligations.HoldShowsCounters : Prop :=
  (∀ s : State,
    (s.readReg 0x8#4).getLsbD 0 = decide (s.hx ≠ 0#24) ∧ (s.readReg 0x8#4).getLsbD 1 = decide (s.hy ≠ 0#24) ∧
    (s.readReg 0x8#4).getLsbD 2 = decide (s.hb ≠ 0#24) ∧ (s.readReg 0x8#4).extractLsb' 3 5 = 0#5) ∧
  State.reset.readReg 0x8#4 = 0x00#8 ∧
  ∀ (s : State) (i : Inputs) (rest : List Inputs) (v : Byte), i.rst = false →
    step (s.withEnv (withAccess i (.write 0x8#4 v) :: rest)) = step (s.withEnv (withAccess i .idle :: rest))

/-- 30_encoding.md R59: the 2-bit codes; no latch value has the code 0b11. -/
def Obligations.ClassAndLatchCodes : Prop :=
  AxisClass.cen.code = 0b00#2 ∧ AxisClass.pos.code = 0b01#2 ∧ AxisClass.neg.code = 0b10#2 ∧ AxisClass.dead.code = 0b11#2 ∧
    LatchVal.center.code = 0b00#2 ∧ LatchVal.pos.code = 0b01#2 ∧ LatchVal.neg.code = 0b10#2 ∧ ∀ l : LatchVal, l.code ≠ 0b11#2

/-- 40_sequencer.md R65: the outputs are functions of the start-of-cycle state: no input reaches an output in the same
cycle, and a request stays as it is while its micro-op is the head. That this is so in the first cycle of a reset too,
where 70_reset_and_hazards.md R122 says that the outputs follow the reset state, is the model's reading (log entry 5). -/
def Obligations.OutputsFollowState : Prop :=
  (∀ (s : State) (a : HostAddr),
    ((s.outputs a).btReq = true ↔ s.busy = true ∧ ∃ w rest, s.seq = .bw w :: rest) ∧
    ((s.outputs a).adcReq = true ↔ s.busy = true ∧ ∃ ch rest, s.seq = .adc ch :: rest) ∧
    (s.outputs a).btAddr = s.par.lcdAddr ∧ (s.outputs a).hrdata = s.readReg a) ∧
  (∀ (s : State) (a : HostAddr) (w : Byte) (rest : List MicroOp), s.busy = true → s.seq = .bw w :: rest →
    (s.outputs a).btReq = true ∧ (s.outputs a).btData = w ∧ (s.outputs a).adcReq = false) ∧
  (∀ (s : State) (a : HostAddr) (ch : Axis) (rest : List MicroOp), s.busy = true → s.seq = .adc ch :: rest →
    (s.outputs a).adcReq = true ∧ (s.outputs a).adcCh = (match ch with | .x => 0#1 | .y => 1#1) ∧ (s.outputs a).btReq = false) ∧
  (∀ (s : State) (a : HostAddr) (env : List Inputs), (s.withEnv env).outputs a = s.outputs a) ∧
  (∀ (s t : State) (a : HostAddr), s.busy = t.busy → s.seq.head? = t.seq.head? → s.par = t.par →
    (s.outputs a).btReq = (t.outputs a).btReq ∧ (s.outputs a).btData = (t.outputs a).btData ∧
      (s.outputs a).adcReq = (t.outputs a).adcReq ∧ (s.outputs a).adcCh = (t.outputs a).adcCh ∧
      (s.outputs a).btAddr = (t.outputs a).btAddr) ∧
  ∀ (s : State) (a : HostAddr),
    ((s.outputs a).btReq = false → (s.outputs a).btData = 0x00#8) ∧ ((s.outputs a).adcReq = false → (s.outputs a).adcCh = 0#1)

/-! ### Acceptance -/

/-- 40_sequencer.md R67: the micro-op list of each command. -/
def Obligations.ProgramTable : Prop :=
  ∀ (p : Params) (d : Byte),
    prog p d .init =
      delay p.tPowerOn ++ nib p 0x3#4 0#1 ++ delay p.tInit1 ++ nib p 0x3#4 0#1 ++ delay p.tInit2 ++ nib p 0x3#4 0#1 ++ delay p.tInit3 ++
        nib p 0x2#4 0#1 ++ byteSeq p 0x28#8 0#1 ++ byteSeq p 0x0C#8 0#1 ++ byteSeq p 0x06#8 0#1 ++ byteSeq p 0x01#8 0#1 ++ delay p.tClear ++
        [.setinit] ∧
    prog p d .clear = byteSeq p 0x01#8 0#1 ++ delay p.tClear ∧
    prog p d .wrcmd = byteSeq p d 0#1 ∧
    prog p d .wrdata = byteSeq p d 1#1 ∧
    prog p d .putc = (if d = 0x0A#8 then byteSeq p 0xC0#8 0#1 else byteSeq p d 1#1) ∧
    prog p d .sample = [.adc .x, .adc .y, .btncap, .commit] ∧
    prog p d .latchclr = [.lclr] ∧
    (∀ n : Count, delay n = if n = 0#24 then [] else [.dly n])

/-- 41_display.md R79: a nibble transfer is three bus words with the settle delay after the second, left out when 0. -/
def Obligations.NibbleTransfer : Prop :=
  (∀ (p : Params) (n : Nibble) (rs : BitVec 1), p.tEn ≠ 0#24 →
    nib p n rs = [.bw (busWord n 0#1 rs), .bw (busWord n 1#1 rs), .dly p.tEn, .bw (busWord n 0#1 rs)]) ∧
  (∀ (p : Params) (n : Nibble) (rs : BitVec 1), p.tEn = 0#24 →
    nib p n rs = [.bw (busWord n 0#1 rs), .bw (busWord n 1#1 rs), .bw (busWord n 0#1 rs)]) ∧
  (∀ (n : Nibble) (en rs : BitVec 1),
    busWord n en rs = (n.setWidth 8 <<< 4) ||| 0x08#8 ||| (en.setWidth 8 <<< 2) ||| rs.setWidth 8) ∧
  (∀ (n : Nibble) (rs : BitVec 1), busWord n 1#1 rs = busWord n 0#1 rs ^^^ 0x04#8) ∧
  ∀ p : Params, busWords (nib p 0x3#4 0#1) = [0x38#8, 0x3C#8, 0x38#8]

/-- 41_display.md R80: a byte transfer is the high nibble then the low nibble, exactly six bus words, with
2 × P_T_EN cycles of settle delay and none after the sixth word. -/
def Obligations.ByteTransfer : Prop :=
  ∀ (p : Params) (b : Byte) (rs : BitVec 1),
    byteSeq p b rs = nib p (b.extractLsb' 4 4) rs ++ nib p (b.extractLsb' 0 4) rs ∧
    busWords (byteSeq p b rs) = sixWords b (rs.setWidth 8) ∧
    delayCycles (byteSeq p b rs) = 2 * p.tEn.toNat ∧
    (byteSeq p b rs).getLast? = some (.bw (lo8 b (rs.setWidth 8)))

/-- 40_sequencer.md R66 and 60_exceptions.md R105: the acceptance checks in their order, for any byte written to CMD. The
cycle is the one without the write, but for the error recorded or the command accepted; and no command has an empty
list. -/
def Obligations.AcceptanceCheckOrder : Prop :=
  (∀ (s u : State) (i : Inputs) (rest : List Inputs) (c : Byte), i.rst = false →
    step (s.withEnv (withAccess i .idle :: rest)) = .next u →
    (s.busy = true →
      step (s.withEnv (withAccess i (.write 0x0#4 c) :: rest))
        = .next { u with errcode := if u.errcode = 0x00#8 then 0x02#8 else u.errcode }) ∧
    (s.busy = false → c ∉ [0x01#8, 0x02#8, 0x03#8, 0x04#8, 0x05#8, 0x11#8, 0x12#8] →
      step (s.withEnv (withAccess i (.write 0x0#4 c) :: rest))
        = .next { u with errcode := if s.errcode = 0x00#8 then 0x01#8 else s.errcode }) ∧
    (s.busy = false → c = 0x01#8 → s.initDone = true →
      step (s.withEnv (withAccess i (.write 0x0#4 c) :: rest))
        = .next { u with errcode := if s.errcode = 0x00#8 then 0x04#8 else s.errcode }) ∧
    (s.busy = false → c ∈ [0x02#8, 0x03#8, 0x04#8, 0x05#8] → s.initDone = false →
      step (s.withEnv (withAccess i (.write 0x0#4 c) :: rest))
        = .next { u with errcode := if s.errcode = 0x00#8 then 0x03#8 else s.errcode }) ∧
    (∀ j : Instr, s.busy = false → decode c = .ok j → (c = 0x01#8 → s.initDone = false) →
      (c ∈ [0x02#8, 0x03#8, 0x04#8, 0x05#8] → s.initDone = true) →
      step (s.withEnv (withAccess i (.write 0x0#4 c) :: rest))
        = .next { u with busy := true, cur := c, opr := s.data, seq := prog s.par s.data j, wcnt := 0#24 })) ∧
  ∀ (p : Params) (d : Byte) (j : Instr), prog p d j ≠ []

/-- 41_display.md R82, 40_sequencer.md R66: INIT with BUSY = 0 and INIT_DONE = 0 is accepted; its whole next state. -/
def Obligations.InitAccepted : Prop :=
  ∀ s : State, s.busy = false → s.initDone = false →
    exec .init s = .next
      { perCycle s with busy := true, cur := 0x01#8, opr := s.data, seq := progInit s.par, wcnt := 0#24 }

/-- 41_display.md R83 to R86, 40_sequencer.md R66: CLEAR, WRCMD, WRDATA and PUTC with BUSY = 0 and INIT_DONE = 1 are
accepted; their whole next states. -/
def Obligations.DisplayCommandsAccepted : Prop :=
  ∀ s : State, s.busy = false → s.initDone = true →
    exec .clear s = .next
      { perCycle s with
        busy := true, cur := 0x02#8, opr := s.data, seq := byteSeq s.par 0x01#8 0#1 ++ delay s.par.tClear, wcnt := 0#24 } ∧
    exec .wrcmd s = .next
      { perCycle s with busy := true, cur := 0x03#8, opr := s.data, seq := byteSeq s.par s.data 0#1, wcnt := 0#24 } ∧
    exec .wrdata s = .next
      { perCycle s with busy := true, cur := 0x04#8, opr := s.data, seq := byteSeq s.par s.data 1#1, wcnt := 0#24 } ∧
    exec .putc s = .next
      { perCycle s with
        busy := true, cur := 0x05#8, opr := s.data,
        seq := if s.data = 0x0A#8 then byteSeq s.par 0xC0#8 0#1 else byteSeq s.par s.data 1#1, wcnt := 0#24 }

/-- 42_input.md R97, R98, 40_sequencer.md R66: SAMPLE and LATCHCLR with BUSY = 0 are accepted, whatever INIT_DONE; their
whole next states. -/
def Obligations.InputCommandsAccepted : Prop :=
  ∀ s : State, s.busy = false →
    exec .sample s = .next
      { perCycle s with
        busy := true, cur := 0x11#8, opr := s.data, seq := [.adc .x, .adc .y, .btncap, .commit], wcnt := 0#24 } ∧
    exec .latchclr s = .next
      { perCycle s with busy := true, cur := 0x12#8, opr := s.data, seq := [.lclr], wcnt := 0#24 }

/-- 60_exceptions.md R103: a CMD write of any byte while BUSY = 1 is dropped with E_BUSY: the cycle is the one without the
write, but for the code, and the code is recorded only where none is. -/
def Obligations.CommandWhileBusyRefused : Prop :=
  (∀ (s : State) (i : Instr), s.busy = true →
    exec i s = .next
      { registerCycle s .idle with
        errcode := if (registerCycle s .idle).errcode = 0x00#8 then 0x02#8 else (registerCycle s .idle).errcode }) ∧
  ∀ (s : State) (i : Inputs) (rest : List Inputs) (c : Byte), i.rst = false → s.busy = true →
    ∃ u, step (s.withEnv (withAccess i .idle :: rest)) = .next u ∧
      step (s.withEnv (withAccess i (.write 0x0#4 c) :: rest))
        = .next { u with errcode := if u.errcode = 0x00#8 then 0x02#8 else u.errcode }

/-- 60_exceptions.md R104: E_NOT_INIT and E_REINIT, each with its whole next state. -/
def Obligations.InitGateRefusals : Prop :=
  (∀ (s : State) (i : Instr), i = .clear ∨ i = .wrcmd ∨ i = .wrdata ∨ i = .putc → s.busy = false → s.initDone = false →
    exec i s = .next { perCycle s with errcode := if s.errcode = 0x00#8 then 0x03#8 else s.errcode }) ∧
  (∀ s : State, s.busy = false → s.initDone = true →
    exec .init s = .next { perCycle s with errcode := if s.errcode = 0x00#8 then 0x04#8 else s.errcode }) ∧
  ∀ s : State, s.busy = false → s.btReq = false ∧ (perCycle s).btReq = false

/-- 60_exceptions.md R102: a byte outside the command map written to CMD while BUSY = 0 raises E_ILLEGAL_CMD and changes
nothing else. -/
def Obligations.IllegalCommandRaises : Prop :=
  ∀ (s : State) (c : Byte), s.inputs.rst = false → hostAccess s.inputs = .write 0x0#4 c →
    c ∉ [0x01#8, 0x02#8, 0x03#8, 0x04#8, 0x05#8, 0x11#8, 0x12#8] → s.busy = false →
    step s = .next { perCycle s with errcode := if s.errcode = 0x00#8 then 0x01#8 else s.errcode }

/-! ### One cycle of the sequencer -/

/-- 40_sequencer.md R69: one cycle of a bus word, the host quiet: acknowledged, refused, timed out, or waiting with a
saturating count. -/
def Obligations.BusWordCycle : Prop :=
  ∀ (s : State) (w : Byte) (rest : List MicroOp), s.hostQuiet = true → s.busy = true → s.seq = .bw w :: rest →
    step s = .next
      (if s.inputs.btDone = true then
        if s.inputs.btOk = true then { perCycle s with seq := rest, wcnt := 0#24, busy := decide (rest ≠ []) }
        else
          { perCycle s with
            seq := [], wcnt := 0#24, busy := false, initDone := false,
            errcode := if s.errcode = 0x00#8 then 0x05#8 else s.errcode }
      else if s.par.waitTimeout ≠ 0#24 ∧ s.wcnt.toNat + 1 ≥ s.par.waitTimeout.toNat then
        { perCycle s with
          seq := [], wcnt := 0#24, busy := false, initDone := false,
          errcode := if s.errcode = 0x00#8 then 0x06#8 else s.errcode }
      else { perCycle s with wcnt := BitVec.ofNat 24 (min (s.wcnt.toNat + 1) (2 ^ 24 - 1)) })

/-- 40_sequencer.md R72: one cycle of a conversion, the host quiet: the sample is captured on its channel, or the wait
times out and the SAMPLE ends with nothing committed, or it goes on. -/
def Obligations.AdcCycle : Prop :=
  ∀ (s : State) (ch : Axis) (rest : List MicroOp), s.hostQuiet = true → s.busy = true → s.seq = .adc ch :: rest →
    step s = .next
      (if s.inputs.adcDone = true then
        match ch with
        | .x => { perCycle s with xs := s.inputs.adcData, seq := rest, wcnt := 0#24, busy := decide (rest ≠ []) }
        | .y => { perCycle s with ys := s.inputs.adcData, seq := rest, wcnt := 0#24, busy := decide (rest ≠ []) }
      else if s.par.waitTimeout ≠ 0#24 ∧ s.wcnt.toNat + 1 ≥ s.par.waitTimeout.toNat then
        { perCycle s with
          seq := [], wcnt := 0#24, busy := false, errcode := if s.errcode = 0x00#8 then 0x07#8 else s.errcode }
      else { perCycle s with wcnt := BitVec.ofNat 24 (min (s.wcnt.toNat + 1) (2 ^ 24 - 1)) })

/-- 40_sequencer.md R73, 41_display.md R82, 42_input.md R98: the one-cycle micro-ops BTNCAP, SETINIT and LCLR, the host
quiet; their whole next states. -/
def Obligations.OneCycleMicroOps : Prop :=
  ∀ (s : State) (rest : List MicroOp), s.hostQuiet = true → s.busy = true →
    (s.seq = .btncap :: rest →
      step s = .next { perCycle s with bs := s.sync2, seq := rest, wcnt := 0#24, busy := decide (rest ≠ []) }) ∧
    (s.seq = .setinit :: rest →
      step s = .next { perCycle s with initDone := true, seq := rest, wcnt := 0#24, busy := decide (rest ≠ []) }) ∧
    (s.seq = .lclr :: rest →
      step s = .next { perCycle s with lx := .center, ly := .center, seq := rest, wcnt := 0#24, busy := decide (rest ≠ []) })

/-- 42_input.md R97: COMMIT, the host quiet; its whole next state, every write from start-of-cycle values. -/
def Obligations.CommitCycle : Prop :=
  ∀ (s : State) (rest : List MicroOp), s.hostQuiet = true → s.busy = true → s.seq = .commit :: rest →
    step s = .next
      { perCycle s with
        xraw := s.xs, yraw := s.ys, xcls := cls s.xs, ycls := cls s.ys,
        lx := (axisRule s.xs s.lx s.hx).latch, ly := (axisRule s.ys s.ly s.hy).latch,
        evXPos := decide ((axisRule s.xs s.lx s.hx).fired = some .pos),
        evXNeg := decide ((axisRule s.xs s.lx s.hx).fired = some .neg),
        evYPos := decide ((axisRule s.ys s.ly s.hy).fired = some .pos),
        evYNeg := decide ((axisRule s.ys s.ly s.hy).fired = some .neg),
        evBPress := decide (s.bprev = true ∧ s.bs = false ∧ s.hb = 0#24),
        bprev := s.bs,
        hx := if (axisRule s.xs s.lx s.hx).load then s.par.axisHoldoff else dec s.hx,
        hy := if (axisRule s.ys s.ly s.hy).load then s.par.axisHoldoff else dec s.hy,
        hb := if s.bprev = true ∧ s.bs = false ∧ s.hb = 0#24 then s.par.btnHoldoff else dec s.hb,
        valid := true, seq := rest, wcnt := 0#24, busy := decide (rest ≠ []) }

/-- 42_input.md R90: the threshold classifier; a DEAD reading produces no event and does not reset a latch. -/
def Obligations.ClassifierBands : Prop :=
  (∀ v : Byte,
    (cls v = .neg ↔ v.toNat ≤ 50) ∧ (cls v = .cen ↔ 110 ≤ v.toNat ∧ v.toNat < 140) ∧ (cls v = .pos ↔ 180 ≤ v.toNat) ∧
      (cls v = .dead ↔ (51 ≤ v.toNat ∧ v.toNat ≤ 109) ∨ (140 ≤ v.toNat ∧ v.toNat ≤ 179))) ∧
  ∀ (v : Byte) (l : LatchVal) (h : Count), cls v = .dead → (axisRule v l h).fired = none ∧ (axisRule v l h).latch = l

/-- 42_input.md R91: the axis action rule, case by case. -/
def Obligations.AxisActionCases : Prop :=
  ∀ (v : Byte) (l : LatchVal) (h : Count),
    (h ≠ 0#24 → axisRule v l h = ⟨cls v, none, l, false⟩) ∧
    (h = 0#24 → cls v = .pos → l ≠ .pos → axisRule v l h = ⟨.pos, some .pos, .pos, true⟩) ∧
    (h = 0#24 → cls v = .neg → l ≠ .neg → axisRule v l h = ⟨.neg, some .neg, .neg, true⟩) ∧
    (h = 0#24 → cls v = .cen → axisRule v l h = ⟨.cen, none, .center, false⟩) ∧
    (h = 0#24 → cls v = .pos → l = .pos → axisRule v l h = ⟨.pos, none, .pos, false⟩) ∧
    (h = 0#24 → cls v = .neg → l = .neg → axisRule v l h = ⟨.neg, none, .neg, false⟩) ∧
    (h = 0#24 → cls v = .dead → axisRule v l h = ⟨.dead, none, l, false⟩)

/-- 40_sequencer.md R77, R75, 60_exceptions.md R109: in a cycle in which the sequencer aborts with E_BUS_NACK, E_BUS_TIMEOUT
or E_ADC_TIMEOUT, its code is the one recorded if none was, also against a CMD write of any byte in the same cycle; and a
host clear in the same cycle leaves it recorded. The bus failures clear INIT_DONE, the conversion's does not. -/
def Obligations.SequencerErrorWinsSameCycle : Prop :=
  ∀ (s : State) (i : Inputs) (rest : List Inputs) (u : MicroOp) (uops : List MicroOp) (code c v : Byte),
    i.rst = false → s.busy = true → s.seq = u :: uops → s.failsWith u i code →
    (∃ t, step (s.withEnv (withAccess i (.write 0x0#4 c) :: rest)) = .next t ∧
      t.errcode = (if s.errcode = 0x00#8 then code else s.errcode) ∧ t.busy = false ∧ t.seq = [] ∧ t.wcnt = 0#24 ∧
      t.initDone = if code = 0x07#8 then s.initDone else false) ∧
    (∃ t, step (s.withEnv (withAccess i (.write 0x3#4 v) :: rest)) = .next t ∧ t.errcode = code ∧ t.busy = false ∧
      t.seq = [] ∧ t.wcnt = 0#24 ∧ t.initDone = if code = 0x07#8 then s.initDone else false)

/-! ### Whole commands -/

/-- 40_sequencer.md R71: DLY(n) lasts exactly n cycles, whatever the host and the ports do meanwhile, counts one up in
each, and has no request on either port; and no list holds a DLY(0). -/
def Obligations.DelayLastsExactly : Prop :=
  (∀ (s : State) (n : Count) (rest : List MicroOp), s.busy = true → s.seq = .dly n :: rest → s.wcnt = 0#24 → n ≠ 0#24 →
    during n.toNat State.noReset s = true →
    (∃ t, run n.toNat s = .next t ∧ t.seq = rest ∧ t.wcnt = 0#24 ∧ t.busy = decide (rest ≠ [])) ∧
    ∀ k, k < n.toNat → ∃ t, run k s = .next t ∧ t.seq = .dly n :: rest ∧ t.wcnt.toNat = k ∧ t.busy = true ∧
      t.btReq = false ∧ t.adcReq = false) ∧
  ∀ (p : Params) (d : Byte) (i : Instr), .dly 0#24 ∉ prog p d i

/-- 60_exceptions.md R107: with P_WAIT_TIMEOUT ≠ 0, a bus word that gets no response keeps its request for P_WAIT_TIMEOUT
cycles and is then aborted with E_BUS_TIMEOUT; INIT_DONE is cleared, and what the sampler holds is unchanged. -/
def Obligations.BusTimeoutAborts : Prop :=
  ∀ (s : State) (w : Byte) (rest : List MicroOp), s.busy = true → s.seq = .bw w :: rest → s.wcnt = 0#24 →
    s.par.waitTimeout ≠ 0#24 →
    during s.par.waitTimeout.toNat (fun v => v.hostQuiet && !v.inputs.btDone) s = true →
    (∃ t, run s.par.waitTimeout.toNat s = .next t ∧ t.busy = false ∧ t.seq = [] ∧ t.wcnt = 0#24 ∧ t.initDone = false ∧
      t.errcode = (if s.errcode = 0x00#8 then 0x06#8 else s.errcode) ∧ t.data = s.data ∧ t.btReq = false ∧ sameInputUnits s t) ∧
    ∀ k, k < s.par.waitTimeout.toNat →
      ∃ t, run k s = .next t ∧ t.busWord? = some w ∧ t.seq = .bw w :: rest ∧ t.errcode = s.errcode ∧ t.initDone = s.initDone

/-- 60_exceptions.md R108: with P_WAIT_TIMEOUT ≠ 0, a conversion that gets no response is aborted after P_WAIT_TIMEOUT
cycles with E_ADC_TIMEOUT; nothing is committed and INIT_DONE is unchanged. -/
def Obligations.AdcTimeoutAborts : Prop :=
  ∀ (s : State) (ch : Axis) (rest : List MicroOp), s.busy = true → s.seq = .adc ch :: rest → s.wcnt = 0#24 →
    s.par.waitTimeout ≠ 0#24 →
    during s.par.waitTimeout.toNat (fun v => v.hostQuiet && !v.inputs.adcDone) s = true →
    (∃ t, run s.par.waitTimeout.toNat s = .next t ∧ t.busy = false ∧ t.seq = [] ∧ t.wcnt = 0#24 ∧ t.initDone = s.initDone ∧
      t.errcode = (if s.errcode = 0x00#8 then 0x07#8 else s.errcode) ∧ t.data = s.data ∧ sameInputUnits s t) ∧
    ∀ k, k < s.par.waitTimeout.toNat →
      ∃ t, run k s = .next t ∧ t.adcAxis? = some ch ∧ t.seq = .adc ch :: rest ∧ t.errcode = s.errcode

/-- 40_sequencer.md R70, R72: with P_WAIT_TIMEOUT = 0, a bus word or a conversion that is never answered never ends,
whatever the host does: BUSY stays 1, the request stays as it was, and WCNT saturates. -/
def Obligations.UnansweredWaitHangs : Prop :=
  (∀ (k : Nat) (s : State) (w : Byte) (rest : List MicroOp), s.par.waitTimeout = 0#24 → s.busy = true → s.seq = .bw w :: rest →
    during k (fun v => v.noReset && !v.inputs.btDone) s = true →
    ∃ t, run k s = .next t ∧ t.busy = true ∧ t.seq = .bw w :: rest ∧ t.busWord? = some w ∧
      t.wcnt.toNat = min (s.wcnt.toNat + k) (2 ^ 24 - 1)) ∧
  ∀ (k : Nat) (s : State) (ch : Axis) (rest : List MicroOp), s.par.waitTimeout = 0#24 → s.busy = true → s.seq = .adc ch :: rest →
    during k (fun v => v.noReset && !v.inputs.adcDone) s = true →
    ∃ t, run k s = .next t ∧ t.busy = true ∧ t.seq = .adc ch :: rest ∧ t.adcAxis? = some ch ∧
      t.wcnt.toNat = min (s.wcnt.toNat + k) (2 ^ 24 - 1)

/-- 41_display.md R82: INIT's bus words. With a transport that acknowledges every word in its first
cycle, and does what it likes where no word is presented, INIT lasts
36 + 1 cycles and its delays, sends exactly the 36 words in order, and ends with INIT_DONE = 1 and BUSY = 0, whatever
the host does meanwhile; what the sampler holds is unchanged. -/
def Obligations.InitPerformed : Prop :=
  ∀ s : State, s.busy = false → s.initDone = false →
    ∃ t, exec .init s = .next t ∧
      ∀ n : Nat,
        n = t.par.tPowerOn.toNat + t.par.tInit1.toNat + t.par.tInit2.toNat + t.par.tInit3.toNat + 12 * t.par.tEn.toNat +
          t.par.tClear.toNat + 37 →
        during n State.busAnswersOk t = true →
        ∃ u, run n t = .next u ∧ u.busy = false ∧ u.seq = [] ∧ u.initDone = true ∧ sameInputUnits s u ∧ u.par = s.par ∧
          u.cur = 0x01#8 ∧ u.opr = s.data ∧
          busTrace n t = initWords.map (fun w => ⟨s.par.lcdAddr, w, true⟩) ∧ during n State.busy t = true

/-- 41_display.md R83 to R86: CLEAR, WRCMD, WRDATA and PUTC. With a transport that acknowledges every word in its first
cycle, and does what it likes where no word is presented, each sends exactly the six words of its byte in order, to P_LCD_ADDR, lasts their six cycles and its delays, and
leaves INIT_DONE and what the sampler holds unchanged, whatever the host does meanwhile. -/
def Obligations.ByteCommandsPerformed : Prop :=
  ∀ (s : State) (i : Instr) (b rs : Byte) (wait : Nat), s.busy = false → s.initDone = true →
    ((i = .clear ∧ b = 0x01#8 ∧ rs = 0#8 ∧ wait = s.par.tClear.toNat) ∨ (i = .wrcmd ∧ b = s.data ∧ rs = 0#8 ∧ wait = 0) ∨
      (i = .wrdata ∧ b = s.data ∧ rs = 1#8 ∧ wait = 0) ∨ (i = .putc ∧ s.data = 0x0A#8 ∧ b = 0xC0#8 ∧ rs = 0#8 ∧ wait = 0) ∨
      (i = .putc ∧ s.data ≠ 0x0A#8 ∧ b = s.data ∧ rs = 1#8 ∧ wait = 0)) →
    ∃ t, exec i s = .next t ∧
      ∀ n : Nat, n = 6 + 2 * s.par.tEn.toNat + wait → during n State.busAnswersOk t = true →
        ∃ u, run n t = .next u ∧ u.busy = false ∧ u.seq = [] ∧ u.initDone = true ∧ sameInputUnits s u ∧ u.par = s.par ∧
          u.cur = encode i ∧ u.opr = s.data ∧
          busTrace n t = (sixWords b rs).map (fun w => ⟨s.par.lcdAddr, w, true⟩) ∧ during n State.busy t = true

/-- 42_input.md R97: SAMPLE with an ADC that answers in each request cycle and a quiet host: four cycles after the
acceptance the two samples, the classes, the latches, the events, the button level of the cycle after acceptance and the
holdoffs stand as the rule says; the whole end state. -/
def Obligations.SamplePerformed : Prop :=
  ∀ (s : State) (i0 i1 i2 i3 i4 : Inputs) (rest : List Inputs), s.env = i0 :: i1 :: i2 :: i3 :: i4 :: rest →
    s.busy = false → (∀ i ∈ [i1, i2, i3, i4], i.rst = false ∧ (i.hEn = false ∨ i.hWe = false)) →
    i1.adcDone = true → i2.adcDone = true →
    ∃ t, exec .sample s = .next t ∧
      run 4 t = .next
        { s with
          xraw := i1.adcData, yraw := i2.adcData, xcls := cls i1.adcData, ycls := cls i2.adcData,
          lx := (axisRule i1.adcData s.lx (dec (dec (dec (dec s.hx))))).latch,
          ly := (axisRule i2.adcData s.ly (dec (dec (dec (dec s.hy))))).latch,
          evXPos := decide ((axisRule i1.adcData s.lx (dec (dec (dec (dec s.hx))))).fired = some .pos),
          evXNeg := decide ((axisRule i1.adcData s.lx (dec (dec (dec (dec s.hx))))).fired = some .neg),
          evYPos := decide ((axisRule i2.adcData s.ly (dec (dec (dec (dec s.hy))))).fired = some .pos),
          evYNeg := decide ((axisRule i2.adcData s.ly (dec (dec (dec (dec s.hy))))).fired = some .neg),
          evBPress := decide (s.bprev = true ∧ i1.btnN = false ∧ dec (dec (dec (dec s.hb))) = 0#24),
          bprev := i1.btnN,
          hx := if (axisRule i1.adcData s.lx (dec (dec (dec (dec s.hx))))).load then s.par.axisHoldoff
            else dec (dec (dec (dec (dec s.hx)))),
          hy := if (axisRule i2.adcData s.ly (dec (dec (dec (dec s.hy))))).load then s.par.axisHoldoff
            else dec (dec (dec (dec (dec s.hy)))),
          hb := if s.bprev = true ∧ i1.btnN = false ∧ dec (dec (dec (dec s.hb))) = 0#24 then s.par.btnHoldoff
            else dec (dec (dec (dec (dec s.hb)))),
          valid := true, busy := false, cur := 0x11#8, opr := s.data, seq := [], wcnt := 0#24,
          xs := i1.adcData, ys := i2.adcData, bs := i1.btnN, sync1 := i4.btnN, sync2 := i3.btnN,
          env := rest, clock := s.clock + 5 }

/-- 42_input.md R98: LATCHCLR with a quiet host: one cycle after the acceptance both latches are CENTER and the command is
over; the whole end state, so nothing else but the per-cycle updates has changed. -/
def Obligations.LatchclrPerformed : Prop :=
  ∀ (s : State) (i0 i1 : Inputs) (rest : List Inputs), s.env = i0 :: i1 :: rest → s.busy = false →
    i1.rst = false → (i1.hEn = false ∨ i1.hWe = false) →
    ∃ t, exec .latchclr s = .next t ∧
      step t = .next
        { s with
          lx := .center, ly := .center, busy := false, cur := 0x12#8, opr := s.data, seq := [], wcnt := 0#24,
          sync1 := i1.btnN, sync2 := i0.btnN, hx := dec (dec s.hx), hy := dec (dec s.hy), hb := dec (dec s.hb),
          env := rest, clock := s.clock + 2 }

/-- 20_memory.md R47, 40_sequencer.md R76: while a command runs and nothing aborts it, the bus words acknowledged so far
and the words still in seq are together exactly the words it began with, in order, each sent once to P_LCD_ADDR,
however long the transport takes and whatever the host does. -/
def Obligations.BusTraceFollowsSequence : Prop :=
  ∀ (k : Nat) (s : State), during k (fun v => v.busy && v.noAbort) s = true →
    ∃ t, run k s = .next t ∧ (busTrace k s).map BusEvent.word ++ busWords t.seq = busWords s.seq ∧
      ∀ e ∈ busTrace k s, e.ok = true ∧ e.addr = s.par.lcdAddr

/-- 70_reset_and_hazards.md R135: the duration of every command that ends without an abort: the cycles its bus words and
conversions take, plus its delays and its one-cycle micro-ops. -/
def Obligations.CommandDurations : Prop :=
  ∀ (s t u : State) (i : Instr) (k : Nat), s.busy = false → exec i s = .next t → t.busy = true →
    during k (fun v => v.busy && v.noAbort) t = true → run k t = .next u → u.busy = false →
    k = cyclesWith k (fun v => v.btReq || v.adcReq) t +
      (match i with
        | .init => s.par.tPowerOn.toNat + s.par.tInit1.toNat + s.par.tInit2.toNat + s.par.tInit3.toNat +
            12 * s.par.tEn.toNat + s.par.tClear.toNat + 1
        | .clear => 2 * s.par.tEn.toNat + s.par.tClear.toNat
        | .wrcmd => 2 * s.par.tEn.toNat
        | .wrdata => 2 * s.par.tEn.toNat
        | .putc => 2 * s.par.tEn.toNat
        | .sample => 2
        | .latchclr => 1)

/-- 00_scope.md R9, 40_sequencer.md R69 to R72: with P_WAIT_TIMEOUT ≠ 0 no command hangs: from every state that meets the
invariant, BUSY is 0 again within a bound that only the remaining list and P_WAIT_TIMEOUT give, whatever the ports and
the host do. -/
def Obligations.BoundedWaitsEnd : Prop :=
  ∀ s : State, s.Inv → s.par.waitTimeout ≠ 0#24 →
    during (waitBound s.par.waitTimeout.toNat s.seq) State.noReset s = true →
    ∃ k ≤ waitBound s.par.waitTimeout.toNat s.seq, ∃ t, run k s = .next t ∧ t.busy = false

/-! ### Invariants and whole-machine rules -/

/-- The invariant of reachable states holds after reset, for every instance. -/
def Obligations.ResetMeetsInvariant : Prop :=
  State.reset.Inv ∧ ∀ p : Params, (State.resetWith p).Inv

/-- Every cycle keeps the invariant of reachable states (10_state.md R20, R24, R31; 40_sequencer.md R69, R71, R76;
42_input.md R100; 60_exceptions.md R104). -/
def Obligations.StepKeepsInvariant : Prop :=
  ∀ s t : State, s.Inv → step s = .next t → t.Inv

/-- 30_encoding.md R57: every bus word presented has bit 3 set and bit 1 clear; and no display traffic goes before the
initialization (60_exceptions.md R104): a bus word belongs to INIT with INIT_DONE = 0, or INIT_DONE = 1. -/
def Obligations.EmittedBusWords : Prop :=
  ∀ (s : State) (w : Byte), s.Inv → s.busWord? = some w →
    w.getLsbD 3 = true ∧ w.getLsbD 1 = false ∧
      ((s.cur = 0x01#8 ∧ s.initDone = false) ∨
        (s.cur ∈ [0x02#8, 0x03#8, 0x04#8, 0x05#8] ∧ s.initDone = true))

/-- 10_state.md R33: the only ways BUSY, INIT_DONE, VALID and ERRCODE change. -/
def Obligations.FlagWriters : Prop :=
  ∀ s t : State, step s = .next t →
    (s.busy = false → t.busy = true →
      s.inputs.rst = false ∧ ∃ c i, hostAccess s.inputs = .write 0x0#4 c ∧ decode c = .ok i ∧ t.cur = c) ∧
    (s.busy = true → t.busy = false → s.seq.length ≤ 1 ∨ s.noAbort = false) ∧
    (s.initDone = false → t.initDone = true → s.performs .setinit = true) ∧
    (s.initDone = true → t.initDone = false → s.inputs.rst = true ∨ (s.btReq = true ∧ s.noAbort = false)) ∧
    (s.valid = false → t.valid = true → s.performs .commit = true) ∧
    (s.valid = true → t.valid = false → s.inputs.rst = true) ∧
    (s.errcode = 0x00#8 → t.errcode ≠ 0x00#8 → s.noAbort = false ∨ ∃ c, hostAccess s.inputs = .write 0x0#4 c) ∧
    (s.errcode ≠ 0x00#8 → t.errcode ≠ s.errcode → s.inputs.rst = true ∨ ∃ v, hostAccess s.inputs = .write 0x3#4 v)

/-- 10_state.md R18, R21 to R23, R27, R29, R32: the only ways DATA, the sample registers, the latches, BPREV and the
sample temporaries change, and the parameters never do. -/
def Obligations.RegisterWriters : Prop :=
  ∀ s t : State, step s = .next t →
    t.par = s.par ∧
    (t.data ≠ s.data → s.inputs.rst = true ∨ hostAccess s.inputs = .write 0x1#4 t.data) ∧
    (s.inputs.rst = false → s.performs .commit = false →
      t.xraw = s.xraw ∧ t.yraw = s.yraw ∧ t.xcls = s.xcls ∧ t.ycls = s.ycls ∧ t.evXPos = s.evXPos ∧ t.evXNeg = s.evXNeg ∧
        t.evYPos = s.evYPos ∧ t.evYNeg = s.evYNeg ∧ t.evBPress = s.evBPress ∧ t.bprev = s.bprev) ∧
    (s.inputs.rst = false → s.performs .commit = false → s.performs .lclr = false → t.lx = s.lx ∧ t.ly = s.ly) ∧
    (s.inputs.rst = false → s.performs (.adc .x) = false → t.xs = s.xs) ∧
    (s.inputs.rst = false → s.performs (.adc .y) = false → t.ys = s.ys) ∧
    (s.inputs.rst = false → s.performs .btncap = false → t.bs = s.bs) ∧
    (t.cur ≠ s.cur ∨ t.opr ≠ s.opr → s.inputs.rst = true ∨ (s.busy = false ∧ t.busy = true ∧ t.opr = s.data))

/-- 60_exceptions.md R101: the first error since the last clear is kept, over any number of cycles. -/
def Obligations.FirstErrorKept : Prop :=
  ∀ (k : Nat) (s : State), s.errcode ≠ 0x00#8 →
    during k (fun v => v.noReset && !(v.inputs.hEn && v.inputs.hWe && v.inputs.haddr == 0x3#4)) s = true →
    ∃ t, run k s = .next t ∧ t.errcode = s.errcode ∧ t.statusByte.getLsbD 2 = true

/-- 42_input.md R100: an event reported in EVENT agrees with the latch of its axis, and every cycle keeps that, but for one
that performs LATCHCLR's micro-op. After reset no event is reported. -/
def Obligations.EventAgreesWithLatch : Prop :=
  (∀ s t : State, s.performs .lclr = false → step s = .next t →
    (s.eventsAgree → t.eventsAgree)) ∧ State.reset.eventsAgree

/-- 10_state.md R30, 70_reset_and_hazards.md R125: SYNC2 is the button level of two cycles before. -/
def Obligations.SynchronizerDelay : Prop :=
  ∀ s t u : State, s.inputs.rst = false → t.inputs.rst = false → step s = .next t → step t = .next u →
    u.sync2 = s.inputs.btnN ∧ u.sync1 = t.inputs.btnN

/-- 42_input.md R93, R96: two events of one axis are at least P_AXIS_HOLDOFF + 1 edges apart, and two button presses at
least P_BTN_HOLDOFF + 1, whatever commands run in between. -/
def Obligations.EventSpacing : Prop :=
  ∀ (k : Nat) (s t : State), during (k + 1) State.noReset s = true → run (k + 1) s = .next t →
    (s.firesX = true → t.firesX = true → s.par.axisHoldoff.toNat + 1 ≤ k + 1) ∧
    (s.firesY = true → t.firesY = true → s.par.axisHoldoff.toNat + 1 ≤ k + 1) ∧
    (s.firesB = true → t.firesB = true → s.par.btnHoldoff.toNat + 1 ≤ k + 1)

/-- 42_input.md R94: once a direction is held in a latch, as it is right after the event of that direction, no commit
reports an event of that axis until a center-band reading is committed, a latch is cleared, or the other direction is
read; and EVENT reports none that it did not report at the start. -/
def Obligations.HeldDeflectionFiresOnce : Prop :=
  ∀ (k : Nat) (s : State) (d : Dir),
    (s.lx = d.latch →
      during (k + 1) (fun v => v.noReset && !v.performs .lclr &&
        (!v.performs .commit || cls v.xs == .dead || (cls v.xs).dir? == some d)) s = true →
      ∃ t, run k s = .next t ∧ t.lx = d.latch ∧ t.firesX = false ∧
        (s.evXPos = false → t.evXPos = false) ∧ (s.evXNeg = false → t.evXNeg = false)) ∧
    (s.ly = d.latch →
      during (k + 1) (fun v => v.noReset && !v.performs .lclr &&
        (!v.performs .commit || cls v.ys == .dead || (cls v.ys).dir? == some d)) s = true →
      ∃ t, run k s = .next t ∧ t.ly = d.latch ∧ t.firesY = false ∧
        (s.evYPos = false → t.evYPos = false) ∧ (s.evYNeg = false → t.evYNeg = false))

/-- 42_input.md R95: at most one press per physical press: once a commit has stored the pressed level, no commit reports a
press until one has captured the released level, however long the line stays low. -/
def Obligations.HeldButtonFiresOnce : Prop :=
  ∀ (k : Nat) (s : State), s.bprev = false →
    during k (fun v => v.noReset && (!v.performs .commit || !v.bs)) s = true →
    ∃ t, run k s = .next t ∧ t.bprev = false ∧ t.firesB = false ∧ (s.evBPress = false → t.evBPress = false)

/-- 20_memory.md R51, 10_state.md R18: what DATA holds while a command runs does not alter the command: two machines that
differ only in DATA do the same, cycle for cycle and bus word for bus word, as long as the command runs. -/
def Obligations.DataDoesNotAlterRunningCommand : Prop :=
  ∀ (k : Nat) (s t : State) (d : Byte), during k State.busy s = true → run k s = .next t →
    (∃ d', run k { s with data := d } = .next { t with data := d' }) ∧ busTrace k { s with data := d } = busTrace k s

/-- 40_sequencer.md R74, 10_state.md R31: CUR and OPR drive nothing: two machines that differ only in them stay equal in
every other element, send the same bus words and read the same at every address. -/
def Obligations.CurAndOprInvisible : Prop :=
  ∀ (k : Nat) (s t : State) (c o : Byte), run k s = .next t →
    ∃ u, run k { s with cur := c, opr := o } = .next u ∧ u = { t with cur := u.cur, opr := u.opr } ∧
      busTrace k { s with cur := c, opr := o } = busTrace k s ∧ ∀ a : HostAddr, u.readReg a = t.readReg a

/-! ### The host's notation -/

/-- 30_encoding.md R61, R62: the expansions of the mnemonics and pseudo-instructions, and that a poll stays while BUSY
reads 1. That the host goes on in the cycle after the read that returned BUSY = 0 is the model's choice (log entry 13). -/
def Obligations.HostNotation : Prop :=
  (∀ d : Byte,
    expand d .init = [.hw 0x0#4 0x01#8, .poll] ∧ expand d .clear = [.hw 0x0#4 0x02#8, .poll] ∧
    expand d .wrcmd = [.hw 0x1#4 d, .hw 0x0#4 0x03#8, .poll] ∧ expand d .wrdata = [.hw 0x1#4 d, .hw 0x0#4 0x04#8, .poll] ∧
    expand d .putc = [.hw 0x1#4 d, .hw 0x0#4 0x05#8, .poll] ∧ expand d .sample = [.hw 0x0#4 0x11#8, .poll] ∧
    expand d .latchclr = [.hw 0x0#4 0x12#8, .poll]) ∧
  (∀ (c : Byte) (text : List Byte),
    expandPuts [] = [] ∧ expandPuts (c :: text) = expand c .putc ++ expandPuts text ∧
    expandPutsRaw [] = [] ∧ expandPutsRaw (c :: text) = expand c .wrdata ++ expandPutsRaw text) ∧
  expandNl = [.hw 0x1#4 0x0A#8, .hw 0x0#4 0x05#8, .poll] ∧ expandLine2 = [.hw 0x1#4 0xC0#8, .hw 0x0#4 0x03#8, .poll] ∧
  expandErrclr = [.hw 0x3#4 0x00#8] ∧ expandWaitidle = [.poll] ∧
  (∀ (i : Inputs) (a : HostAddr) (v : Byte), hostAccess (withAccess i (.write a v)) = .write a v ∧
    hostAccess (withAccess i (.read a)) = .read a ∧ hostAccess (withAccess i .idle) = .idle) ∧
  ∀ (s : State) (rest : List HostOp), hostDrives (.poll :: rest) = .read 0x2#4 ∧
    hostAdvance (s.readReg 0x2#4) (.poll :: rest) = if s.busy then .poll :: rest else rest
end

