-- ==== Sys2Proof/Laws/State.lean ====
section
/-! SUPPORT. What each field of State is after each shared update of a cycle: one lemma per field and update. -/

namespace Sys2Proof.Laws

open Sys2Proof.Machine

section PerCycle

variable (s : State)

@[simp] theorem perCycle_data : (perCycle s).data = s.data := rfl
@[simp] theorem perCycle_errcode : (perCycle s).errcode = s.errcode := rfl
@[simp] theorem perCycle_xraw : (perCycle s).xraw = s.xraw := rfl
@[simp] theorem perCycle_yraw : (perCycle s).yraw = s.yraw := rfl
@[simp] theorem perCycle_xcls : (perCycle s).xcls = s.xcls := rfl
@[simp] theorem perCycle_ycls : (perCycle s).ycls = s.ycls := rfl
@[simp] theorem perCycle_evXPos : (perCycle s).evXPos = s.evXPos := rfl
@[simp] theorem perCycle_evXNeg : (perCycle s).evXNeg = s.evXNeg := rfl
@[simp] theorem perCycle_evYPos : (perCycle s).evYPos = s.evYPos := rfl
@[simp] theorem perCycle_evYNeg : (perCycle s).evYNeg = s.evYNeg := rfl
@[simp] theorem perCycle_evBPress : (perCycle s).evBPress = s.evBPress := rfl
@[simp] theorem perCycle_busy : (perCycle s).busy = s.busy := rfl
@[simp] theorem perCycle_initDone : (perCycle s).initDone = s.initDone := rfl
@[simp] theorem perCycle_valid : (perCycle s).valid = s.valid := rfl
@[simp] theorem perCycle_cur : (perCycle s).cur = s.cur := rfl
@[simp] theorem perCycle_opr : (perCycle s).opr = s.opr := rfl
@[simp] theorem perCycle_seq : (perCycle s).seq = s.seq := rfl
@[simp] theorem perCycle_wcnt : (perCycle s).wcnt = s.wcnt := rfl
@[simp] theorem perCycle_lx : (perCycle s).lx = s.lx := rfl
@[simp] theorem perCycle_ly : (perCycle s).ly = s.ly := rfl
@[simp] theorem perCycle_hx : (perCycle s).hx = dec s.hx := rfl
@[simp] theorem perCycle_hy : (perCycle s).hy = dec s.hy := rfl
@[simp] theorem perCycle_hb : (perCycle s).hb = dec s.hb := rfl
@[simp] theorem perCycle_bprev : (perCycle s).bprev = s.bprev := rfl
@[simp] theorem perCycle_sync1 : (perCycle s).sync1 = s.inputs.btnN := rfl
@[simp] theorem perCycle_sync2 : (perCycle s).sync2 = s.sync1 := rfl
@[simp] theorem perCycle_xs : (perCycle s).xs = s.xs := rfl
@[simp] theorem perCycle_ys : (perCycle s).ys = s.ys := rfl
@[simp] theorem perCycle_bs : (perCycle s).bs = s.bs := rfl
@[simp] theorem perCycle_par : (perCycle s).par = s.par := rfl
@[simp] theorem perCycle_env : (perCycle s).env = s.env.tail := rfl
@[simp] theorem perCycle_clock : (perCycle s).clock = s.clock + 1 := rfl

end PerCycle

section PopSeq

variable (rest : List MicroOp) (acc : State)

@[simp] theorem popSeq_data : (popSeq rest acc).data = acc.data := rfl
@[simp] theorem popSeq_errcode : (popSeq rest acc).errcode = acc.errcode := rfl
@[simp] theorem popSeq_xraw : (popSeq rest acc).xraw = acc.xraw := rfl
@[simp] theorem popSeq_yraw : (popSeq rest acc).yraw = acc.yraw := rfl
@[simp] theorem popSeq_xcls : (popSeq rest acc).xcls = acc.xcls := rfl
@[simp] theorem popSeq_ycls : (popSeq rest acc).ycls = acc.ycls := rfl
@[simp] theorem popSeq_evXPos : (popSeq rest acc).evXPos = acc.evXPos := rfl
@[simp] theorem popSeq_evXNeg : (popSeq rest acc).evXNeg = acc.evXNeg := rfl
@[simp] theorem popSeq_evYPos : (popSeq rest acc).evYPos = acc.evYPos := rfl
@[simp] theorem popSeq_evYNeg : (popSeq rest acc).evYNeg = acc.evYNeg := rfl
@[simp] theorem popSeq_evBPress : (popSeq rest acc).evBPress = acc.evBPress := rfl
@[simp] theorem popSeq_busy : (popSeq rest acc).busy = !rest.isEmpty := rfl
@[simp] theorem popSeq_initDone : (popSeq rest acc).initDone = acc.initDone := rfl
@[simp] theorem popSeq_valid : (popSeq rest acc).valid = acc.valid := rfl
@[simp] theorem popSeq_cur : (popSeq rest acc).cur = acc.cur := rfl
@[simp] theorem popSeq_opr : (popSeq rest acc).opr = acc.opr := rfl
@[simp] theorem popSeq_seq : (popSeq rest acc).seq = rest := rfl
@[simp] theorem popSeq_wcnt : (popSeq rest acc).wcnt = 0#24 := rfl
@[simp] theorem popSeq_lx : (popSeq rest acc).lx = acc.lx := rfl
@[simp] theorem popSeq_ly : (popSeq rest acc).ly = acc.ly := rfl
@[simp] theorem popSeq_hx : (popSeq rest acc).hx = acc.hx := rfl
@[simp] theorem popSeq_hy : (popSeq rest acc).hy = acc.hy := rfl
@[simp] theorem popSeq_hb : (popSeq rest acc).hb = acc.hb := rfl
@[simp] theorem popSeq_bprev : (popSeq rest acc).bprev = acc.bprev := rfl
@[simp] theorem popSeq_sync1 : (popSeq rest acc).sync1 = acc.sync1 := rfl
@[simp] theorem popSeq_sync2 : (popSeq rest acc).sync2 = acc.sync2 := rfl
@[simp] theorem popSeq_xs : (popSeq rest acc).xs = acc.xs := rfl
@[simp] theorem popSeq_ys : (popSeq rest acc).ys = acc.ys := rfl
@[simp] theorem popSeq_bs : (popSeq rest acc).bs = acc.bs := rfl
@[simp] theorem popSeq_par : (popSeq rest acc).par = acc.par := rfl
@[simp] theorem popSeq_env : (popSeq rest acc).env = acc.env := rfl
@[simp] theorem popSeq_clock : (popSeq rest acc).clock = acc.clock := rfl

end PopSeq

section AbortSeq

variable (e : ErrCode) (acc : State)

@[simp] theorem abortSeq_data : (abortSeq e acc).data = acc.data := rfl
@[simp] theorem abortSeq_errcode : (abortSeq e acc).errcode = acc.errcode := rfl
@[simp] theorem abortSeq_xraw : (abortSeq e acc).xraw = acc.xraw := rfl
@[simp] theorem abortSeq_yraw : (abortSeq e acc).yraw = acc.yraw := rfl
@[simp] theorem abortSeq_xcls : (abortSeq e acc).xcls = acc.xcls := rfl
@[simp] theorem abortSeq_ycls : (abortSeq e acc).ycls = acc.ycls := rfl
@[simp] theorem abortSeq_evXPos : (abortSeq e acc).evXPos = acc.evXPos := rfl
@[simp] theorem abortSeq_evXNeg : (abortSeq e acc).evXNeg = acc.evXNeg := rfl
@[simp] theorem abortSeq_evYPos : (abortSeq e acc).evYPos = acc.evYPos := rfl
@[simp] theorem abortSeq_evYNeg : (abortSeq e acc).evYNeg = acc.evYNeg := rfl
@[simp] theorem abortSeq_evBPress : (abortSeq e acc).evBPress = acc.evBPress := rfl
@[simp] theorem abortSeq_busy : (abortSeq e acc).busy = false := rfl
@[simp] theorem abortSeq_initDone : (abortSeq e acc).initDone = (acc.initDone && !e.busFailure) := rfl
@[simp] theorem abortSeq_valid : (abortSeq e acc).valid = acc.valid := rfl
@[simp] theorem abortSeq_cur : (abortSeq e acc).cur = acc.cur := rfl
@[simp] theorem abortSeq_opr : (abortSeq e acc).opr = acc.opr := rfl
@[simp] theorem abortSeq_seq : (abortSeq e acc).seq = [] := rfl
@[simp] theorem abortSeq_wcnt : (abortSeq e acc).wcnt = 0#24 := rfl
@[simp] theorem abortSeq_lx : (abortSeq e acc).lx = acc.lx := rfl
@[simp] theorem abortSeq_ly : (abortSeq e acc).ly = acc.ly := rfl
@[simp] theorem abortSeq_hx : (abortSeq e acc).hx = acc.hx := rfl
@[simp] theorem abortSeq_hy : (abortSeq e acc).hy = acc.hy := rfl
@[simp] theorem abortSeq_hb : (abortSeq e acc).hb = acc.hb := rfl
@[simp] theorem abortSeq_bprev : (abortSeq e acc).bprev = acc.bprev := rfl
@[simp] theorem abortSeq_sync1 : (abortSeq e acc).sync1 = acc.sync1 := rfl
@[simp] theorem abortSeq_sync2 : (abortSeq e acc).sync2 = acc.sync2 := rfl
@[simp] theorem abortSeq_xs : (abortSeq e acc).xs = acc.xs := rfl
@[simp] theorem abortSeq_ys : (abortSeq e acc).ys = acc.ys := rfl
@[simp] theorem abortSeq_bs : (abortSeq e acc).bs = acc.bs := rfl
@[simp] theorem abortSeq_par : (abortSeq e acc).par = acc.par := rfl
@[simp] theorem abortSeq_env : (abortSeq e acc).env = acc.env := rfl
@[simp] theorem abortSeq_clock : (abortSeq e acc).clock = acc.clock := rfl

end AbortSeq

section Accept

variable (s : State) (c : Byte) (uops : List MicroOp) (acc : State)

@[simp] theorem accept_data : (accept s c uops acc).data = acc.data := rfl
@[simp] theorem accept_errcode : (accept s c uops acc).errcode = acc.errcode := rfl
@[simp] theorem accept_xraw : (accept s c uops acc).xraw = acc.xraw := rfl
@[simp] theorem accept_yraw : (accept s c uops acc).yraw = acc.yraw := rfl
@[simp] theorem accept_xcls : (accept s c uops acc).xcls = acc.xcls := rfl
@[simp] theorem accept_ycls : (accept s c uops acc).ycls = acc.ycls := rfl
@[simp] theorem accept_evXPos : (accept s c uops acc).evXPos = acc.evXPos := rfl
@[simp] theorem accept_evXNeg : (accept s c uops acc).evXNeg = acc.evXNeg := rfl
@[simp] theorem accept_evYPos : (accept s c uops acc).evYPos = acc.evYPos := rfl
@[simp] theorem accept_evYNeg : (accept s c uops acc).evYNeg = acc.evYNeg := rfl
@[simp] theorem accept_evBPress : (accept s c uops acc).evBPress = acc.evBPress := rfl
@[simp] theorem accept_busy : (accept s c uops acc).busy = true := rfl
@[simp] theorem accept_initDone : (accept s c uops acc).initDone = acc.initDone := rfl
@[simp] theorem accept_valid : (accept s c uops acc).valid = acc.valid := rfl
@[simp] theorem accept_cur : (accept s c uops acc).cur = c := rfl
@[simp] theorem accept_opr : (accept s c uops acc).opr = s.data := rfl
@[simp] theorem accept_seq : (accept s c uops acc).seq = uops := rfl
@[simp] theorem accept_wcnt : (accept s c uops acc).wcnt = 0#24 := rfl
@[simp] theorem accept_lx : (accept s c uops acc).lx = acc.lx := rfl
@[simp] theorem accept_ly : (accept s c uops acc).ly = acc.ly := rfl
@[simp] theorem accept_hx : (accept s c uops acc).hx = acc.hx := rfl
@[simp] theorem accept_hy : (accept s c uops acc).hy = acc.hy := rfl
@[simp] theorem accept_hb : (accept s c uops acc).hb = acc.hb := rfl
@[simp] theorem accept_bprev : (accept s c uops acc).bprev = acc.bprev := rfl
@[simp] theorem accept_sync1 : (accept s c uops acc).sync1 = acc.sync1 := rfl
@[simp] theorem accept_sync2 : (accept s c uops acc).sync2 = acc.sync2 := rfl
@[simp] theorem accept_xs : (accept s c uops acc).xs = acc.xs := rfl
@[simp] theorem accept_ys : (accept s c uops acc).ys = acc.ys := rfl
@[simp] theorem accept_bs : (accept s c uops acc).bs = acc.bs := rfl
@[simp] theorem accept_par : (accept s c uops acc).par = acc.par := rfl
@[simp] theorem accept_env : (accept s c uops acc).env = acc.env := rfl
@[simp] theorem accept_clock : (accept s c uops acc).clock = acc.clock := rfl

end Accept

section ResetCycle

variable (s : State)

@[simp] theorem resetCycle_data : (resetCycle s).data = 0x00#8 := rfl
@[simp] theorem resetCycle_errcode : (resetCycle s).errcode = 0x00#8 := rfl
@[simp] theorem resetCycle_xraw : (resetCycle s).xraw = 0x00#8 := rfl
@[simp] theorem resetCycle_yraw : (resetCycle s).yraw = 0x00#8 := rfl
@[simp] theorem resetCycle_xcls : (resetCycle s).xcls = .cen := rfl
@[simp] theorem resetCycle_ycls : (resetCycle s).ycls = .cen := rfl
@[simp] theorem resetCycle_evXPos : (resetCycle s).evXPos = false := rfl
@[simp] theorem resetCycle_evXNeg : (resetCycle s).evXNeg = false := rfl
@[simp] theorem resetCycle_evYPos : (resetCycle s).evYPos = false := rfl
@[simp] theorem resetCycle_evYNeg : (resetCycle s).evYNeg = false := rfl
@[simp] theorem resetCycle_evBPress : (resetCycle s).evBPress = false := rfl
@[simp] theorem resetCycle_busy : (resetCycle s).busy = false := rfl
@[simp] theorem resetCycle_initDone : (resetCycle s).initDone = false := rfl
@[simp] theorem resetCycle_valid : (resetCycle s).valid = false := rfl
@[simp] theorem resetCycle_cur : (resetCycle s).cur = 0x00#8 := rfl
@[simp] theorem resetCycle_opr : (resetCycle s).opr = 0x00#8 := rfl
@[simp] theorem resetCycle_seq : (resetCycle s).seq = [] := rfl
@[simp] theorem resetCycle_wcnt : (resetCycle s).wcnt = 0#24 := rfl
@[simp] theorem resetCycle_lx : (resetCycle s).lx = .center := rfl
@[simp] theorem resetCycle_ly : (resetCycle s).ly = .center := rfl
@[simp] theorem resetCycle_hx : (resetCycle s).hx = 0#24 := rfl
@[simp] theorem resetCycle_hy : (resetCycle s).hy = 0#24 := rfl
@[simp] theorem resetCycle_hb : (resetCycle s).hb = 0#24 := rfl
@[simp] theorem resetCycle_bprev : (resetCycle s).bprev = true := rfl
@[simp] theorem resetCycle_sync1 : (resetCycle s).sync1 = true := rfl
@[simp] theorem resetCycle_sync2 : (resetCycle s).sync2 = true := rfl
@[simp] theorem resetCycle_xs : (resetCycle s).xs = 0x00#8 := rfl
@[simp] theorem resetCycle_ys : (resetCycle s).ys = 0x00#8 := rfl
@[simp] theorem resetCycle_bs : (resetCycle s).bs = true := rfl
@[simp] theorem resetCycle_par : (resetCycle s).par = s.par := rfl
@[simp] theorem resetCycle_env : (resetCycle s).env = s.env.tail := rfl
@[simp] theorem resetCycle_clock : (resetCycle s).clock = s.clock + 1 := rfl

end ResetCycle

section CommitSample

variable (s acc : State)

@[simp] theorem commitSample_data : (commitSample s acc).data = acc.data := rfl
@[simp] theorem commitSample_errcode : (commitSample s acc).errcode = acc.errcode := rfl
@[simp] theorem commitSample_xraw : (commitSample s acc).xraw = s.xs := rfl
@[simp] theorem commitSample_yraw : (commitSample s acc).yraw = s.ys := rfl
@[simp] theorem commitSample_xcls : (commitSample s acc).xcls = (axisRule s.xs s.lx s.hx).cls := rfl
@[simp] theorem commitSample_ycls : (commitSample s acc).ycls = (axisRule s.ys s.ly s.hy).cls := rfl
@[simp] theorem commitSample_evXPos : (commitSample s acc).evXPos = ((axisRule s.xs s.lx s.hx).fired == some Dir.pos) := rfl
@[simp] theorem commitSample_evXNeg : (commitSample s acc).evXNeg = ((axisRule s.xs s.lx s.hx).fired == some Dir.neg) := rfl
@[simp] theorem commitSample_evYPos : (commitSample s acc).evYPos = ((axisRule s.ys s.ly s.hy).fired == some Dir.pos) := rfl
@[simp] theorem commitSample_evYNeg : (commitSample s acc).evYNeg = ((axisRule s.ys s.ly s.hy).fired == some Dir.neg) := rfl
@[simp] theorem commitSample_evBPress : (commitSample s acc).evBPress = fireButton s.bprev s.bs s.hb := rfl
@[simp] theorem commitSample_busy : (commitSample s acc).busy = acc.busy := rfl
@[simp] theorem commitSample_initDone : (commitSample s acc).initDone = acc.initDone := rfl
@[simp] theorem commitSample_valid : (commitSample s acc).valid = true := rfl
@[simp] theorem commitSample_cur : (commitSample s acc).cur = acc.cur := rfl
@[simp] theorem commitSample_opr : (commitSample s acc).opr = acc.opr := rfl
@[simp] theorem commitSample_seq : (commitSample s acc).seq = acc.seq := rfl
@[simp] theorem commitSample_wcnt : (commitSample s acc).wcnt = acc.wcnt := rfl
@[simp] theorem commitSample_lx : (commitSample s acc).lx = (axisRule s.xs s.lx s.hx).latch := rfl
@[simp] theorem commitSample_ly : (commitSample s acc).ly = (axisRule s.ys s.ly s.hy).latch := rfl
@[simp] theorem commitSample_hx : (commitSample s acc).hx = (if (axisRule s.xs s.lx s.hx).load then s.par.axisHoldoff else acc.hx) := rfl
@[simp] theorem commitSample_hy : (commitSample s acc).hy = (if (axisRule s.ys s.ly s.hy).load then s.par.axisHoldoff else acc.hy) := rfl
@[simp] theorem commitSample_hb : (commitSample s acc).hb = (if fireButton s.bprev s.bs s.hb then s.par.btnHoldoff else acc.hb) := rfl
@[simp] theorem commitSample_bprev : (commitSample s acc).bprev = s.bs := rfl
@[simp] theorem commitSample_sync1 : (commitSample s acc).sync1 = acc.sync1 := rfl
@[simp] theorem commitSample_sync2 : (commitSample s acc).sync2 = acc.sync2 := rfl
@[simp] theorem commitSample_xs : (commitSample s acc).xs = acc.xs := rfl
@[simp] theorem commitSample_ys : (commitSample s acc).ys = acc.ys := rfl
@[simp] theorem commitSample_bs : (commitSample s acc).bs = acc.bs := rfl
@[simp] theorem commitSample_par : (commitSample s acc).par = acc.par := rfl
@[simp] theorem commitSample_env : (commitSample s acc).env = acc.env := rfl
@[simp] theorem commitSample_clock : (commitSample s acc).clock = acc.clock := rfl

end CommitSample

section WithEnv

variable (s : State) (env : List Inputs)

@[simp] theorem withEnv_data : (s.withEnv env).data = s.data := rfl
@[simp] theorem withEnv_errcode : (s.withEnv env).errcode = s.errcode := rfl
@[simp] theorem withEnv_xraw : (s.withEnv env).xraw = s.xraw := rfl
@[simp] theorem withEnv_yraw : (s.withEnv env).yraw = s.yraw := rfl
@[simp] theorem withEnv_xcls : (s.withEnv env).xcls = s.xcls := rfl
@[simp] theorem withEnv_ycls : (s.withEnv env).ycls = s.ycls := rfl
@[simp] theorem withEnv_evXPos : (s.withEnv env).evXPos = s.evXPos := rfl
@[simp] theorem withEnv_evXNeg : (s.withEnv env).evXNeg = s.evXNeg := rfl
@[simp] theorem withEnv_evYPos : (s.withEnv env).evYPos = s.evYPos := rfl
@[simp] theorem withEnv_evYNeg : (s.withEnv env).evYNeg = s.evYNeg := rfl
@[simp] theorem withEnv_evBPress : (s.withEnv env).evBPress = s.evBPress := rfl
@[simp] theorem withEnv_busy : (s.withEnv env).busy = s.busy := rfl
@[simp] theorem withEnv_initDone : (s.withEnv env).initDone = s.initDone := rfl
@[simp] theorem withEnv_valid : (s.withEnv env).valid = s.valid := rfl
@[simp] theorem withEnv_cur : (s.withEnv env).cur = s.cur := rfl
@[simp] theorem withEnv_opr : (s.withEnv env).opr = s.opr := rfl
@[simp] theorem withEnv_seq : (s.withEnv env).seq = s.seq := rfl
@[simp] theorem withEnv_wcnt : (s.withEnv env).wcnt = s.wcnt := rfl
@[simp] theorem withEnv_lx : (s.withEnv env).lx = s.lx := rfl
@[simp] theorem withEnv_ly : (s.withEnv env).ly = s.ly := rfl
@[simp] theorem withEnv_hx : (s.withEnv env).hx = s.hx := rfl
@[simp] theorem withEnv_hy : (s.withEnv env).hy = s.hy := rfl
@[simp] theorem withEnv_hb : (s.withEnv env).hb = s.hb := rfl
@[simp] theorem withEnv_bprev : (s.withEnv env).bprev = s.bprev := rfl
@[simp] theorem withEnv_sync1 : (s.withEnv env).sync1 = s.sync1 := rfl
@[simp] theorem withEnv_sync2 : (s.withEnv env).sync2 = s.sync2 := rfl
@[simp] theorem withEnv_xs : (s.withEnv env).xs = s.xs := rfl
@[simp] theorem withEnv_ys : (s.withEnv env).ys = s.ys := rfl
@[simp] theorem withEnv_bs : (s.withEnv env).bs = s.bs := rfl
@[simp] theorem withEnv_par : (s.withEnv env).par = s.par := rfl
@[simp] theorem withEnv_env : (s.withEnv env).env = env := rfl
@[simp] theorem withEnv_clock : (s.withEnv env).clock = s.clock := rfl

end WithEnv

/-- `t` with DATA and ERRCODE set: what the host's accesses of a cycle amount to, but for acceptance. -/
def settled (t : State) (d e : Byte) : State :=
  { t with data := d, errcode := e }

section Settled

variable (t : State) (d e : Byte)

@[simp] theorem settled_data : (settled t d e).data = d := rfl
@[simp] theorem settled_errcode : (settled t d e).errcode = e := rfl
@[simp] theorem settled_xraw : (settled t d e).xraw = t.xraw := rfl
@[simp] theorem settled_yraw : (settled t d e).yraw = t.yraw := rfl
@[simp] theorem settled_xcls : (settled t d e).xcls = t.xcls := rfl
@[simp] theorem settled_ycls : (settled t d e).ycls = t.ycls := rfl
@[simp] theorem settled_evXPos : (settled t d e).evXPos = t.evXPos := rfl
@[simp] theorem settled_evXNeg : (settled t d e).evXNeg = t.evXNeg := rfl
@[simp] theorem settled_evYPos : (settled t d e).evYPos = t.evYPos := rfl
@[simp] theorem settled_evYNeg : (settled t d e).evYNeg = t.evYNeg := rfl
@[simp] theorem settled_evBPress : (settled t d e).evBPress = t.evBPress := rfl
@[simp] theorem settled_busy : (settled t d e).busy = t.busy := rfl
@[simp] theorem settled_initDone : (settled t d e).initDone = t.initDone := rfl
@[simp] theorem settled_valid : (settled t d e).valid = t.valid := rfl
@[simp] theorem settled_cur : (settled t d e).cur = t.cur := rfl
@[simp] theorem settled_opr : (settled t d e).opr = t.opr := rfl
@[simp] theorem settled_seq : (settled t d e).seq = t.seq := rfl
@[simp] theorem settled_wcnt : (settled t d e).wcnt = t.wcnt := rfl
@[simp] theorem settled_lx : (settled t d e).lx = t.lx := rfl
@[simp] theorem settled_ly : (settled t d e).ly = t.ly := rfl
@[simp] theorem settled_hx : (settled t d e).hx = t.hx := rfl
@[simp] theorem settled_hy : (settled t d e).hy = t.hy := rfl
@[simp] theorem settled_hb : (settled t d e).hb = t.hb := rfl
@[simp] theorem settled_bprev : (settled t d e).bprev = t.bprev := rfl
@[simp] theorem settled_sync1 : (settled t d e).sync1 = t.sync1 := rfl
@[simp] theorem settled_sync2 : (settled t d e).sync2 = t.sync2 := rfl
@[simp] theorem settled_xs : (settled t d e).xs = t.xs := rfl
@[simp] theorem settled_ys : (settled t d e).ys = t.ys := rfl
@[simp] theorem settled_bs : (settled t d e).bs = t.bs := rfl
@[simp] theorem settled_par : (settled t d e).par = t.par := rfl
@[simp] theorem settled_env : (settled t d e).env = t.env := rfl
@[simp] theorem settled_clock : (settled t d e).clock = t.clock := rfl

end Settled

end Sys2Proof.Laws
end

