-- ==== Sys2Proof/Laws/Ops.lean ====
section
/-! SUPPORT. Once for each shared operation: everything it can do, and what it leaves alone. -/

namespace Sys2Proof.Laws

open Sys2Proof.Machine

/-! ### Inputs and host accesses -/

@[simp] theorem withEnv_inputs (s : State) (i : Inputs) (rest : List Inputs) :
    (s.withEnv (i :: rest)).inputs = i := rfl

theorem inputs_of_env {s : State} {i : Inputs} {rest : List Inputs} (h : s.env = i :: rest) : s.inputs = i := by
  simp [State.inputs, h]

@[simp] theorem hostAccess_withAccess (i : Inputs) (a : HostAccess) : hostAccess (withAccess i a) = a := by
  cases a <;> simp [hostAccess, withAccess]

@[simp] theorem withAccess_rst (i : Inputs) (a : HostAccess) : (withAccess i a).rst = i.rst := by
  cases a <;> rfl

@[simp] theorem withAccess_btDone (i : Inputs) (a : HostAccess) : (withAccess i a).btDone = i.btDone := by
  cases a <;> rfl

@[simp] theorem withAccess_btOk (i : Inputs) (a : HostAccess) : (withAccess i a).btOk = i.btOk := by
  cases a <;> rfl

@[simp] theorem withAccess_adcDone (i : Inputs) (a : HostAccess) : (withAccess i a).adcDone = i.adcDone := by
  cases a <;> rfl

@[simp] theorem withAccess_adcData (i : Inputs) (a : HostAccess) : (withAccess i a).adcData = i.adcData := by
  cases a <;> rfl

@[simp] theorem withAccess_btnN (i : Inputs) (a : HostAccess) : (withAccess i a).btnN = i.btnN := by
  cases a <;> rfl

/-! ### Error codes -/

/-- Raising an error keeps a recorded code, and otherwise records the new one. -/
theorem raise_some (code : Byte) (e : ErrCode) : raise code (some e) = if code = 0x00#8 then e.code else code := rfl

@[simp] theorem raise_none (code : Byte) : raise code none = code := rfl

theorem errCode_code_ne_zero (e : ErrCode) : e.code ≠ 0x00#8 := by
  cases e <;> decide

theorem errCode_code_le (e : ErrCode) : e.code.toNat ≤ 7 := by
  cases e <;> decide

/-- A raised code is the old one, or an error's where none was recorded. -/
theorem raise_cases (code : Byte) (o : Option ErrCode) :
    raise code o = code ∨ (code = 0x00#8 ∧ ∃ e, o = some e ∧ raise code o = e.code) := by
  cases o with
  | none => exact .inl rfl
  | some e =>
    by_cases h : code = 0x00#8
    · exact .inr ⟨h, e, rfl, by simp [raise_some, h]⟩
    · exact .inl (by rw [raise_some, if_neg h])

theorem raise_le {code : Byte} (h : code.toNat ≤ 7) (o : Option ErrCode) : (raise code o).toNat ≤ 7 := by
  rcases raise_cases code o with e | ⟨_, e, _, e'⟩
  · rw [e]; exact h
  · rw [e']; exact errCode_code_le e

/-! ### The micro-op in progress -/

/-- A wait without a response either goes on, or aborts with its own error and then only with a nonzero bound
reached. -/
theorem waitVerdict_cases (s : State) (e : ErrCode) :
    (waitVerdict s e = .stay ∧ (s.par.waitTimeout = 0#24 ∨ s.wcnt.toNat + 1 < s.par.waitTimeout.toNat)) ∨
      (waitVerdict s e = .abort e ∧ s.par.waitTimeout ≠ 0#24 ∧ s.par.waitTimeout.toNat ≤ s.wcnt.toNat + 1) := by
  unfold waitVerdict
  split
  · next h => exact .inr ⟨rfl, h⟩
  · next h =>
    refine .inl ⟨rfl, ?_⟩
    by_cases h0 : s.par.waitTimeout = 0#24
    · exact .inl h0
    · exact .inr (by simp only [not_and, not_le] at h; exact h h0)

/-- The sequencer's cycle: idle, or one of the ends of the head micro-op. -/
theorem seqStep_cases (s acc : State) :
    (s.busy = false ∧ seqStep s acc = acc ∧ seqRaise s = none) ∨
    (s.busy = true ∧ s.seq = [] ∧ seqStep s acc = popSeq [] acc ∧ seqRaise s = none) ∨
    (∃ u rest, s.busy = true ∧ s.seq = u :: rest ∧
      ((uopVerdict s u = .stay ∧ seqStep s acc = { acc with wcnt := satInc s.wcnt } ∧ seqRaise s = none) ∨
       (uopVerdict s u = .pop ∧ seqStep s acc = popSeq rest (uopEffect s u acc) ∧ seqRaise s = none) ∨
       (∃ e, uopVerdict s u = .abort e ∧ seqStep s acc = abortSeq e acc ∧ seqRaise s = some e))) := by
  cases hb : s.busy with
  | false => exact .inl ⟨rfl, by simp [seqStep, hb], by simp [seqRaise, hb]⟩
  | true =>
    refine .inr ?_
    cases hs : s.seq with
    | nil => exact .inl ⟨rfl, rfl, by simp [seqStep, hb, hs], by simp [seqRaise, hb, hs]⟩
    | cons u rest =>
      refine .inr ⟨u, rest, rfl, rfl, ?_⟩
      cases hv : uopVerdict s u with
      | stay => exact .inl ⟨rfl, by simp [seqStep, hb, hs, hv], by simp [seqRaise, hb, hs, hv]⟩
      | pop => exact .inr (.inl ⟨rfl, by simp [seqStep, hb, hs, hv], by simp [seqRaise, hb, hs, hv]⟩)
      | abort e => exact .inr (.inr ⟨e, rfl, by simp [seqStep, hb, hs, hv], by simp [seqRaise, hb, hs, hv]⟩)

theorem seqStep_idle {s : State} (h : s.busy = false) (acc : State) : seqStep s acc = acc := by
  simp [seqStep, h]

theorem seqRaise_idle {s : State} (h : s.busy = false) : seqRaise s = none := by
  simp [seqRaise, h]

section Frame

variable (s acc : State) (u : MicroOp)

@[simp] theorem uopEffect_data : (uopEffect s u acc).data = acc.data := by
  rcases u with _ | _ | ⟨_ | _⟩ | _ | _ | _ | _ <;> rfl

@[simp] theorem uopEffect_cur : (uopEffect s u acc).cur = acc.cur := by
  rcases u with _ | _ | ⟨_ | _⟩ | _ | _ | _ | _ <;> rfl

@[simp] theorem uopEffect_opr : (uopEffect s u acc).opr = acc.opr := by
  rcases u with _ | _ | ⟨_ | _⟩ | _ | _ | _ | _ <;> rfl

@[simp] theorem uopEffect_par : (uopEffect s u acc).par = acc.par := by
  rcases u with _ | _ | ⟨_ | _⟩ | _ | _ | _ | _ <;> rfl

@[simp] theorem uopEffect_env : (uopEffect s u acc).env = acc.env := by
  rcases u with _ | _ | ⟨_ | _⟩ | _ | _ | _ | _ <;> rfl

@[simp] theorem uopEffect_clock : (uopEffect s u acc).clock = acc.clock := by
  rcases u with _ | _ | ⟨_ | _⟩ | _ | _ | _ | _ <;> rfl

@[simp] theorem uopEffect_errcode : (uopEffect s u acc).errcode = acc.errcode := by
  rcases u with _ | _ | ⟨_ | _⟩ | _ | _ | _ | _ <;> rfl

@[simp] theorem uopEffect_sync1 : (uopEffect s u acc).sync1 = acc.sync1 := by
  rcases u with _ | _ | ⟨_ | _⟩ | _ | _ | _ | _ <;> rfl

@[simp] theorem uopEffect_sync2 : (uopEffect s u acc).sync2 = acc.sync2 := by
  rcases u with _ | _ | ⟨_ | _⟩ | _ | _ | _ | _ <;> rfl

/-- The sequencer writes only what its micro-ops write: never DATA, ERRCODE, CUR, OPR, the synchronizer or the model's
fields. -/
theorem seqStep_frame :
    (seqStep s acc).data = acc.data ∧
      (seqStep s acc).errcode = acc.errcode ∧
      (seqStep s acc).cur = acc.cur ∧
      (seqStep s acc).opr = acc.opr ∧
      (seqStep s acc).par = acc.par ∧
      (seqStep s acc).env = acc.env ∧
      (seqStep s acc).clock = acc.clock ∧
      (seqStep s acc).sync1 = acc.sync1 ∧
      (seqStep s acc).sync2 = acc.sync2 := by
  rcases seqStep_cases s acc with ⟨_, e, _⟩ | ⟨_, _, e, _⟩ | ⟨u, rest, _, _, ⟨_, e, _⟩ | ⟨_, e, _⟩ | ⟨x, _, e, _⟩⟩ <;>
    simp [e]

@[simp] theorem seqStep_data : (seqStep s acc).data = acc.data := (seqStep_frame s acc).1

@[simp] theorem seqStep_errcode : (seqStep s acc).errcode = acc.errcode := (seqStep_frame s acc).2.1

@[simp] theorem seqStep_cur : (seqStep s acc).cur = acc.cur := (seqStep_frame s acc).2.2.1

@[simp] theorem seqStep_opr : (seqStep s acc).opr = acc.opr := (seqStep_frame s acc).2.2.2.1

@[simp] theorem seqStep_par : (seqStep s acc).par = acc.par := (seqStep_frame s acc).2.2.2.2.1

@[simp] theorem seqStep_env : (seqStep s acc).env = acc.env := (seqStep_frame s acc).2.2.2.2.2.1

@[simp] theorem seqStep_clock : (seqStep s acc).clock = acc.clock := (seqStep_frame s acc).2.2.2.2.2.2.1

@[simp] theorem seqStep_sync1 : (seqStep s acc).sync1 = acc.sync1 := (seqStep_frame s acc).2.2.2.2.2.2.2.1

@[simp] theorem seqStep_sync2 : (seqStep s acc).sync2 = acc.sync2 := (seqStep_frame s acc).2.2.2.2.2.2.2.2

end Frame

/-! ### The cycle -/

@[simp] theorem registerCycle_idle (s : State) : registerCycle s .idle = cycle s false none := rfl

@[simp] theorem registerCycle_read (s : State) (a : HostAddr) : registerCycle s (.read a) = cycle s false none := rfl

/-- While idle, a cycle without an accepted command makes the per-cycle updates and settles ERRCODE. -/
theorem cycle_idle {s : State} (h : s.busy = false) (b : Bool) (r : Option ErrCode) :
    cycle s b r = { perCycle s with errcode := raise (if b then 0x00#8 else s.errcode) r } := by
  simp [cycle, seqStep_idle h, seqRaise_idle h, settleErr, errNone]

/-- A refusal adds its code to what the same cycle without it records. -/
theorem cycle_refusal (s : State) (b : Bool) (e : ErrCode) :
    cycle s b (some e) = { cycle s b none with errcode := raise (cycle s b none).errcode (some e) } := rfl

/-- A CMD write: refused while busy, refused by its gate, or accepted. -/
theorem commandCycle_cases (s : State) (c : Byte) (gate : Option ErrCode) (uops : List MicroOp) :
    (s.busy = true ∧ commandCycle s c gate uops = cycle s false (some .eBusy)) ∨
    (∃ e, s.busy = false ∧ gate = some e ∧ commandCycle s c gate uops = cycle s false (some e)) ∨
    (s.busy = false ∧ gate = none ∧ commandCycle s c gate uops = accept s c uops (cycle s false none)) := by
  cases hb : s.busy with
  | true => exact .inl ⟨rfl, by simp [commandCycle, hb]⟩
  | false =>
    cases gate with
    | some e => exact .inr (.inl ⟨e, rfl, rfl, by simp [commandCycle, hb]⟩)
    | none => exact .inr (.inr ⟨rfl, rfl, by simp [commandCycle, hb]⟩)

theorem commandCycle_busy {s : State} (h : s.busy = true) (c : Byte) (g : Option ErrCode) (uops : List MicroOp) :
    commandCycle s c g uops = cycle s false (some .eBusy) := by
  simp [commandCycle, h]

theorem commandCycle_refused {s : State} (h : s.busy = false) (c : Byte) (e : ErrCode) (uops : List MicroOp) :
    commandCycle s c (some e) uops = cycle s false (some e) := by
  simp [commandCycle, h]

theorem commandCycle_accepted {s : State} (h : s.busy = false) (c : Byte) (uops : List MicroOp) :
    commandCycle s c none uops = accept s c uops (cycle s false none) := by
  simp [commandCycle, h]

/-- The gate of a command (40_sequencer.md R66). -/
def gate (s : State) : Instr → Option ErrCode
  | .init => gateReinit s
  | .clear => gateNotInit s
  | .wrcmd => gateNotInit s
  | .wrdata => gateNotInit s
  | .putc => gateNotInit s
  | .sample => none
  | .latchclr => none

/-- Every command is a CMD write with its own gate and its own list. -/
theorem exec_eq (i : Instr) (s : State) :
    exec i s = .next (commandCycle s (encode i) (gate s i) (prog s.par s.data i)) := by
  cases i <;> rfl

/-- The effect of a cycle does not depend on which host access stands on the host port. -/
theorem cycle_access (s : State) (i : Inputs) (rest : List Inputs) (a : HostAccess) (b : Bool) (r : Option ErrCode) :
    cycle (s.withEnv (withAccess i a :: rest)) b r = cycle (s.withEnv (withAccess i .idle :: rest)) b r := by
  cases a <;> rfl

section CycleFrame

variable (s : State) (b : Bool) (r : Option ErrCode)

@[simp] theorem cycle_data : (cycle s b r).data = s.data := (seqStep_data s _).trans rfl

@[simp] theorem cycle_cur : (cycle s b r).cur = s.cur := (seqStep_cur s _).trans rfl

@[simp] theorem cycle_opr : (cycle s b r).opr = s.opr := (seqStep_opr s _).trans rfl

@[simp] theorem cycle_par : (cycle s b r).par = s.par := (seqStep_par s _).trans rfl

@[simp] theorem cycle_env : (cycle s b r).env = s.env.tail := (seqStep_env s _).trans rfl

@[simp] theorem cycle_clock : (cycle s b r).clock = s.clock + 1 := (seqStep_clock s _).trans rfl

@[simp] theorem cycle_sync1 : (cycle s b r).sync1 = s.inputs.btnN := (seqStep_sync1 s _).trans rfl

@[simp] theorem cycle_sync2 : (cycle s b r).sync2 = s.sync1 := (seqStep_sync2 s _).trans rfl

@[simp] theorem cycle_errcode : (cycle s b r).errcode = settleErr s.errcode b (seqRaise s) r := rfl

end CycleFrame

/-! ### The step -/

theorem step_reset {s : State} (h : s.inputs.rst = true) : step s = .next (resetCycle s) := by
  simp [step, fetch, h]

/-- What a step does, by the cycle's inputs: a reset edge, a command, an illegal byte, or another access. -/
theorem step_cases (s : State) :
    (s.inputs.rst = true ∧ step s = .next (resetCycle s)) ∨
    (∃ c i, s.inputs.rst = false ∧ hostAccess s.inputs = .write 0x0#4 c ∧ decode c = .ok i ∧ step s = exec i s) ∨
    (∃ c e, s.inputs.rst = false ∧ hostAccess s.inputs = .write 0x0#4 c ∧ decode c = .error e ∧
      step s = .next (illegalCycle s c)) ∨
    (s.inputs.rst = false ∧ (∀ c, hostAccess s.inputs ≠ .write 0x0#4 c) ∧
      step s = .next (registerCycle s (hostAccess s.inputs))) := by
  cases hr : s.inputs.rst with
  | true => exact .inl ⟨rfl, step_reset hr⟩
  | false =>
    refine .inr ?_
    cases ha : hostAccess s.inputs with
    | idle => exact .inr (.inr ⟨rfl, by simp, by simp [step, fetch, hr, ha]⟩)
    | read a => exact .inr (.inr ⟨rfl, by simp, by simp [step, fetch, hr, ha]⟩)
    | write a v =>
      by_cases h0 : a = 0x0#4
      · subst h0
        cases hd : decode v with
        | ok i => exact .inl ⟨v, i, rfl, rfl, hd, by simp [step, fetch, hr, ha, addrCmd, hd]⟩
        | error e => exact .inr (.inl ⟨v, e, rfl, rfl, hd, by simp [step, fetch, hr, ha, addrCmd, hd]⟩)
      · exact .inr (.inr ⟨rfl, by intro c hc; cases hc; exact h0 rfl, by
          have h0' : ¬ a = addrCmd := h0
          simp only [step, fetch, hr, ha, if_neg h0', Bool.false_eq_true, if_false]⟩)

/-- A cycle without reset whose host access is no CMD write. -/
theorem step_access {s : State} {a : HostAccess} (hr : s.inputs.rst = false) (ha : hostAccess s.inputs = a)
    (hc : ∀ c, a ≠ .write 0x0#4 c) : step s = .next (registerCycle s a) := by
  rcases step_cases s with ⟨h, _⟩ | ⟨c, i, _, h, _, _⟩ | ⟨c, e, _, h, _, _⟩ | ⟨_, _, h⟩
  · rw [hr] at h; exact absurd h (by decide)
  · exact absurd (ha.symm.trans h) (hc c)
  · exact absurd (ha.symm.trans h) (hc c)
  · rw [h, ha]

/-- A cycle for which inputs without reset are placed, its host access no CMD write. -/
theorem step_placed {s : State} {i : Inputs} {rest : List Inputs} {a : HostAccess} (hr : i.rst = false)
    (hc : ∀ c, a ≠ .write 0x0#4 c) :
    step (s.withEnv (withAccess i a :: rest)) = .next (registerCycle (s.withEnv (withAccess i a :: rest)) a) :=
  step_access (by simpa using hr) (by simp) hc

/-- A cycle for which inputs without reset are placed, its host access a CMD write of `c`. -/
theorem step_placed_command {s : State} {i : Inputs} {rest : List Inputs} {c : Byte} {j : Instr} (hr : i.rst = false)
    (hd : decode c = .ok j) :
    step (s.withEnv (withAccess i (.write 0x0#4 c) :: rest)) = exec j (s.withEnv (withAccess i (.write 0x0#4 c) :: rest)) := by
  rcases step_cases (s.withEnv (withAccess i (.write 0x0#4 c) :: rest)) with
    ⟨h, _⟩ | ⟨c', j', _, h, hd', e⟩ | ⟨c', e, _, h, hd', _⟩ | ⟨_, h, _⟩
  · simp [hr] at h
  · simp at h; subst h; rw [hd] at hd'; cases hd'; exact e
  · simp at h; subst h; rw [hd] at hd'; cases hd'
  · simp at h

/-- A cycle without reset and without a host write. -/
theorem step_quiet {s : State} (h : s.hostQuiet = true) : step s = .next (cycle s false none) := by
  simp only [State.hostQuiet, Bool.and_eq_true, Bool.not_eq_true', Bool.and_eq_false_iff] at h
  obtain ⟨hr, hw⟩ := h
  rcases hw with he | hw
  · rw [step_access hr (a := .idle) (by simp [hostAccess, he]) (by simp)]; rfl
  · cases he : s.inputs.hEn with
    | false => rw [step_access hr (a := .idle) (by simp [hostAccess, he]) (by simp)]; rfl
    | true => rw [step_access hr (a := .read s.inputs.haddr) (by simp [hostAccess, he, hw]) (by simp)]; rfl

/-- The write of a cycle's host access to DATA and ERRCODE, once: any access but a CMD write. -/
theorem registerCycle_cases (s : State) (a : HostAccess) :
    (∃ v, a = .write 0x1#4 v ∧ registerCycle s a = { cycle s false none with data := v }) ∨
    (∃ v, a = .write 0x3#4 v ∧ registerCycle s a = cycle s true none) ∨
    (registerCycle s a = cycle s false none ∧ (∀ v, a ≠ .write 0x1#4 v) ∧ ∀ v, a ≠ .write 0x3#4 v) := by
  cases a with
  | idle => exact .inr (.inr ⟨rfl, by simp, by simp⟩)
  | read a => exact .inr (.inr ⟨rfl, by simp, by simp⟩)
  | write a v =>
    by_cases h1 : a = 0x1#4
    · exact .inl ⟨v, by rw [h1], by simp [registerCycle, addrData, h1]⟩
    · by_cases h3 : a = 0x3#4
      · subst h3
        exact .inr (.inl ⟨v, rfl, by simp [registerCycle, addrData, addrErrcode]⟩)
      · refine .inr (.inr ⟨by
          have h1' : ¬ a = addrData := h1
          have h3' : ¬ a = addrErrcode := h3
          simp only [registerCycle, if_neg h1', if_neg h3'], ?_, ?_⟩)
        · intro w hw; cases hw; exact h1 rfl
        · intro w hw; cases hw; exact h3 rfl

/-- While idle, a cycle in which nothing touches ERRCODE is the per-cycle updates. -/
theorem cycle_idle_plain {s : State} (h : s.busy = false) : cycle s false none = perCycle s := by
  rw [cycle_idle h]; rfl

/-- Everything a cycle without reset can do. Either it is the host-quiet cycle but for DATA and ERRCODE: DATA as before or
as the host wrote it; ERRCODE with the sequencer's error, after a host clear, or before the code of a refused CMD write.
Or the machine was idle and accepts a command. -/
theorem step_shape {s : State} (hr : s.inputs.rst = false) :
    (∃ d e, step s = .next (settled (cycle s false none) d e) ∧
      (d = s.data ∨ hostAccess s.inputs = .write 0x1#4 d) ∧
      (e = raise s.errcode (seqRaise s) ∨
        (∃ v, hostAccess s.inputs = .write 0x3#4 v ∧ e = raise 0x00#8 (seqRaise s)) ∨
        (∃ c x, hostAccess s.inputs = .write 0x0#4 c ∧ e = raise (raise s.errcode (seqRaise s)) (some x)))) ∨
    (∃ c i, s.busy = false ∧ hostAccess s.inputs = .write 0x0#4 c ∧ decode c = .ok i ∧ gate s i = none ∧
      step s = .next (accept s (encode i) (prog s.par s.data i) (perCycle s))) := by
  have eq : ∀ b x, cycle s b x = settled (cycle s false none) s.data (settleErr s.errcode b (seqRaise s) x) := by
    intro b x
    simp only [settled, cycle, seqStep_data, perCycle_data]
  rcases step_cases s with ⟨h, _⟩ | ⟨c, i, _, ha, hd, h⟩ | ⟨c, e, _, ha, hd, h⟩ | ⟨_, hc, h⟩
  · rw [hr] at h; exact absurd h (by decide)
  · rcases commandCycle_cases s (encode i) (gate s i) (prog s.par s.data i) with ⟨_, e⟩ | ⟨x, _, _, e⟩ | ⟨hb, hg, e⟩
    · exact .inl ⟨_, _, by rw [h, exec_eq, e, eq]; rfl, .inl rfl, .inr (.inr ⟨c, _, ha, rfl⟩)⟩
    · exact .inl ⟨_, _, by rw [h, exec_eq, e, eq]; rfl, .inl rfl, .inr (.inr ⟨c, _, ha, rfl⟩)⟩
    · exact .inr ⟨c, i, hb, ha, hd, hg, by rw [h, exec_eq, e, cycle_idle_plain hb]⟩
  · rcases commandCycle_cases s c (some .eIllegalCmd) [] with ⟨_, e⟩ | ⟨x, _, _, e⟩ | ⟨_, hg, _⟩
    · exact .inl ⟨_, _, by rw [h, illegalCycle, e, eq]; rfl, .inl rfl, .inr (.inr ⟨c, _, ha, rfl⟩)⟩
    · exact .inl ⟨_, _, by rw [h, illegalCycle, e, eq]; rfl, .inl rfl, .inr (.inr ⟨c, _, ha, rfl⟩)⟩
    · cases hg
  · rcases registerCycle_cases s (hostAccess s.inputs) with ⟨v, ha, e⟩ | ⟨v, ha, e⟩ | ⟨e, _, _⟩
    · exact .inl ⟨v, _, by rw [h, e, eq]; rfl, .inr ha, .inl rfl⟩
    · exact .inl ⟨_, _, by rw [h, e, eq]; rfl, .inl rfl, .inr (.inl ⟨v, ha, rfl⟩)⟩
    · exact .inl ⟨_, _, by rw [h, e, eq]; rfl, .inl rfl, .inl rfl⟩

end Sys2Proof.Laws
end

