-- ==== Sys2Proof/Laws/PerInstr.lean ====
section
/-! SUPPORT. One law for every command: its encoded byte has the fields of the command map and is in use
(30_encoding.md R53, R54). -/

namespace Sys2Proof.Laws.EncodedByteWellFormed

/-- The byte of a command splits into the command's group and operation, and both are in use. -/
def Statement (i : Instr) : Prop :=
  Cmd8.ofByte (encode i) = i.fields ∧ (Cmd8.ofByte (encode i)).wellFormed = true ∧ i.wellFormed = true

theorem init : Statement .init := ⟨by decide, by decide, by decide⟩

theorem clear : Statement .clear := ⟨by decide, by decide, by decide⟩

theorem wrcmd : Statement .wrcmd := ⟨by decide, by decide, by decide⟩

theorem wrdata : Statement .wrdata := ⟨by decide, by decide, by decide⟩

theorem putc : Statement .putc := ⟨by decide, by decide, by decide⟩

theorem sample : Statement .sample := ⟨by decide, by decide, by decide⟩

theorem latchclr : Statement .latchclr := ⟨by decide, by decide, by decide⟩

end Sys2Proof.Laws.EncodedByteWellFormed
end

