-- ==== Sys2Proof/Laws/Run.lean ====
section
/-! SUPPORT. How the run of cycles, the bus word trace and the predicates over a run unfold by one cycle. -/

namespace Sys2Proof.Laws

open Sys2Proof.Machine

variable {s t : State}

@[simp] theorem run_zero (s : State) : run 0 s = .next s := rfl

theorem run_succ (h : step s = .next t) (k : Nat) : run (k + 1) s = run k t := by
  simp [run, h]

@[simp] theorem during_zero (p : State → Bool) (s : State) : during 0 p s = true := rfl

theorem during_succ (h : step s = .next t) (k : Nat) (p : State → Bool) :
    during (k + 1) p s = (p s && during k p t) := by
  simp [during, h]

@[simp] theorem busTrace_zero (s : State) : busTrace 0 s = [] := rfl

theorem busTrace_succ (h : step s = .next t) (k : Nat) :
    busTrace (k + 1) s = s.busEvent?.toList ++ busTrace k t := by
  simp [busTrace, h]

@[simp] theorem cyclesWith_zero (p : State → Bool) (s : State) : cyclesWith 0 p s = 0 := rfl

theorem cyclesWith_succ (h : step s = .next t) (k : Nat) (p : State → Bool) :
    cyclesWith (k + 1) p s = (if p s then 1 else 0) + cyclesWith k p t := by
  simp [cyclesWith, h]

section Lists

variable (a b : List MicroOp)

/-- The bus words of a list put together from two. -/
@[simp] theorem busWords_append : busWords (a ++ b) = busWords a ++ busWords b := by
  induction a with
  | nil => rfl
  | cons u rest ih => cases u <;> simp [busWords, ih]

/-- The delay cycles of a list put together from two. -/
@[simp] theorem delayCycles_append : delayCycles (a ++ b) = delayCycles a + delayCycles b := by
  induction a with
  | nil => simp [delayCycles]
  | cons u rest ih => cases u <;> simp [delayCycles, ih, Nat.add_assoc]

/-- The one-cycle micro-ops of a list put together from two. -/
@[simp] theorem oneCycleOps_append : oneCycleOps (a ++ b) = oneCycleOps a + oneCycleOps b := by
  induction a with
  | nil => simp [oneCycleOps]
  | cons u rest ih => cases u <;> simp [oneCycleOps, ih] <;> omega

/-- A delay has no bus word, whether it is left out or not. -/
@[simp] theorem busWords_delay (n : Count) : busWords (delay n) = [] := by
  unfold delay; split <;> rfl

/-- A delay counts its cycles, whether it is left out or not. -/
@[simp] theorem delayCycles_delay (n : Count) : delayCycles (delay n) = n.toNat := by
  unfold delay
  split
  · next h => simp [delayCycles, h]
  · simp [delayCycles]

@[simp] theorem oneCycleOps_delay (n : Count) : oneCycleOps (delay n) = 0 := by
  unfold delay; split <;> rfl

end Lists

end Sys2Proof.Laws
end

