-- ==== Sys2Proof/Tests/Slice0.lean ====
section
/-! SUPPORT. Tests on single cycles, their expected results from spec/95_test_vectors.md and the rules' own examples, and
for each statement with hypotheses a witness that meets them together. -/

namespace Sys2Proof.Tests
open Sys2Proof Sys2Proof.Machine

/-! ### Builders -/

/-- All delays and holdoffs 0, no wait bound. -/
def p0 : Params := ⟨0x27#7, 0#24, 0#24, 0#24, 0#24, 0#24, 0#24, 0#24, 0#24, 0#24⟩

/-- Holdoffs 4 and 9, waits bounded by 3. -/
def p3 : Params := { p0 with axisHoldoff := 4#24, btnHoldoff := 9#24, waitTimeout := 3#24 }

/-- Both responses in the same cycle, with sample `v`. -/
def answer (v : Byte) : Inputs :=
  { Inputs.quiet with btDone := true, btOk := true, adcDone := true, adcData := v }

/-- The transport refuses. -/
def nack : Inputs := { Inputs.quiet with btDone := true }

/-- The host writes `v` at `a`. -/
def writes (a : HostAddr) (v : Byte) : Inputs := withAccess Inputs.quiet (.write a v)

/-- A reset edge, whatever else stands on the pins. -/
def resetPins : Inputs := { answer 0xFF#8 with rst := true, hEn := true, hWe := true, haddr := 0x0#4, hwdata := 0x01#8 }

/-- An idle instance whose coming cycles take `env`. -/
def idle (p : Params) (env : List Inputs) : State := (State.resetWith p).withEnv env

/-- An idle instance with the display initialised. -/
def ready (p : Params) (env : List Inputs) : State := { idle p env with initDone := true }

/-- An instance in the middle of the command `c`, with `seq` still to do. -/
def running (p : Params) (c : Byte) (seq : List MicroOp) (env : List Inputs) : State :=
  { idle p env with busy := true, cur := c, seq := seq }

/-- An instance about to commit a sample. -/
def committing (p : Params) (x y : Byte) (b : Bool) (env : List Inputs) : State :=
  { running p 0x11#8 [.commit] env with xs := x, ys := y, bs := b }

/-- The pins of an environment that answers each request in its first cycle, with sample `v`, and nothing else
(00_scope.md R14). -/
def legalPins (v : Byte) : List MicroOp → List Inputs
  | [] => []
  | .bw _ :: rest => { Inputs.quiet with btDone := true, btOk := true } :: legalPins v rest
  | .adc _ :: rest => { Inputs.quiet with adcDone := true, adcData := v } :: legalPins v rest
  | .dly n :: rest => List.replicate n.toNat Inputs.quiet ++ legalPins v rest
  | _ :: rest => Inputs.quiet :: legalPins v rest

/-- All delays 1 and no wait bound. -/
def p1 : Params := { p0 with tPowerOn := 1#24, tInit1 := 1#24, tInit2 := 1#24, tInit3 := 1#24, tEn := 1#24, tClear := 1#24 }

/-- The state after the coming cycle. -/
def after (s : State) : State :=
  match step s with
  | .next t => t
  | .fault _ => s
  | .refused _ => s

/-- The state after `k` cycles. -/
def afterRun : Nat → State → State
  | 0, s => s
  | k + 1, s => afterRun k (after s)

/-! ### Decoding: every command's word, group bits then operation bits (30_encoding.md R53, R54) -/

theorem test_decode_init : decode 0b0000_0001#8 = .ok .init ∧ decodeTableWord 8 0b0000_0001 = some .init := by decide

theorem test_decode_clear : decode 0b0000_0010#8 = .ok .clear ∧ decodeTableWord 8 0b0000_0010 = some .clear := by decide

theorem test_decode_wrcmd : decode 0b0000_0011#8 = .ok .wrcmd ∧ decodeTableWord 8 0b0000_0011 = some .wrcmd := by decide

theorem test_decode_wrdata : decode 0b0000_0100#8 = .ok .wrdata ∧ decodeTableWord 8 0b0000_0100 = some .wrdata := by decide

theorem test_decode_putc : decode 0b0000_0101#8 = .ok .putc ∧ decodeTableWord 8 0b0000_0101 = some .putc := by decide

theorem test_decode_sample : decode 0b0001_0001#8 = .ok .sample ∧ decodeTableWord 8 0b0001_0001 = some .sample := by decide

theorem test_decode_latchclr :
    decode 0b0001_0010#8 = .ok .latchclr ∧ decodeTableWord 8 0b0001_0010 = some .latchclr := by decide

/-- The bytes at the edges of the illegal ranges of R55. -/
theorem test_decode_rejects :
    decode 0x00#8 = .error (.illegalCommand 0x00#8) ∧ decode 0x06#8 = .error (.illegalCommand 0x06#8) ∧
      decode 0x10#8 = .error (.illegalCommand 0x10#8) ∧ decode 0x13#8 = .error (.illegalCommand 0x13#8) ∧
      decode 0x21#8 = .error (.illegalCommand 0x21#8) ∧ decode 0xFF#8 = .error (.illegalCommand 0xFF#8) := by decide

/-- No byte matches two rows of the command map. -/
theorem test_rows_disjoint :
    opcodeTable.Pairwise (fun a b => a.pattern &&& (a.mask &&& b.mask) ≠ b.pattern &&& (a.mask &&& b.mask)) := by decide

/-- Each check of WellFormed refuses an ill-formed term. -/
theorem test_wellFormed_refuses :
    Cmd8.groupInUse ⟨0x2#4, 0x1#4⟩ = false ∧ Cmd8.groupInUse ⟨0xF#4, 0x1#4⟩ = false ∧
      Cmd8.opInUse ⟨0x0#4, 0x0#4⟩ = false ∧ Cmd8.opInUse ⟨0x0#4, 0x6#4⟩ = false ∧
      Cmd8.opInUse ⟨0x1#4, 0x0#4⟩ = false ∧ Cmd8.opInUse ⟨0x1#4, 0x3#4⟩ = false ∧
      Cmd8.wellFormed ⟨0x2#4, 0x1#4⟩ = false ∧ Cmd8.wellFormed ⟨0x0#4, 0x6#4⟩ = false := by decide

/-- A micro-op with a cleared backlight bit, a set bit 1 or no length is refused (30_encoding.md R57; 40_sequencer.md
R71). -/
theorem test_microOp_wellFormed_refuses :
    MicroOp.wellFormed (.bw 0x31#8) = false ∧ MicroOp.wellFormed (.bw 0x3A#8) = false ∧
      MicroOp.wellFormed (.dly 0#24) = false ∧ MicroOp.wellFormed (.bw 0x38#8) = true := by decide

/-! ### The vectors of 95_test_vectors.md -/

/-- V3.16: INIT's 36 words. -/
theorem test_init_words : busWords (progInit p0) = initWords ∧ (progInit p0).length = 37 := by decide

/-- V4.3: INIT while INIT_DONE = 1. -/
theorem test_init_refused :
    (after (ready p0 [writes 0x0#4 0x01#8])).readReg 0x3#4 = 0x04#8 ∧
      (after (ready p0 [writes 0x0#4 0x01#8])).readReg 0x2#4 = 0x06#8 := by decide

/-- V3.13: CLEAR. -/
theorem test_clear_words :
    (after (ready { p0 with tClear := 7#24 } [writes 0x0#4 0x02#8])).seq
      = [.bw 0x08#8, .bw 0x0C#8, .bw 0x08#8, .bw 0x18#8, .bw 0x1C#8, .bw 0x18#8, .dly 7#24] := by decide

/-- V3.2 and V3.6: WRCMD, the newline not mapped. -/
theorem test_wrcmd_words :
    busWords (progWrcmd p0 0xC0#8) = [0xC8#8, 0xCC#8, 0xC8#8, 0x08#8, 0x0C#8, 0x08#8] ∧
      busWords (progWrcmd p0 0x0A#8) = [0x08#8, 0x0C#8, 0x08#8, 0xA8#8, 0xAC#8, 0xA8#8] := by decide

/-- V3.15: WRDATA with a settle delay. -/
theorem test_wrdata_list :
    (after { ready { p0 with tEn := 2#24 } [writes 0x0#4 0x04#8] with data := 0x41#8 }).seq
      = [.bw 0x49#8, .bw 0x4D#8, .dly 2#24, .bw 0x49#8, .bw 0x19#8, .bw 0x1D#8, .dly 2#24, .bw 0x19#8] := by decide

/-- V3.5 and V4.2: the newline as data, and a refusal before INIT. -/
theorem test_wrdata_corners :
    busWords (progWrdata p0 0x0A#8) = [0x09#8, 0x0D#8, 0x09#8, 0xA9#8, 0xAD#8, 0xA9#8] ∧
      (after (idle p0 [writes 0x0#4 0x04#8])).readReg 0x3#4 = 0x03#8 := by decide

/-- V3.3 and V3.4: PUTC. -/
theorem test_putc_words :
    busWords (progPutc p0 0x0A#8) = [0xC8#8, 0xCC#8, 0xC8#8, 0x08#8, 0x0C#8, 0x08#8] ∧
      busWords (progPutc p0 0x31#8) = [0x39#8, 0x3D#8, 0x39#8, 0x19#8, 0x1D#8, 0x19#8] := by decide

/-- V2.14: one SAMPLE from reset, X = 200, Y = 128, released. -/
theorem test_sample_commit :
    (after (committing p0 200#8 128#8 true [Inputs.quiet])).readReg 0x4#4 = 0xC8#8 ∧
      (after (committing p0 200#8 128#8 true [Inputs.quiet])).readReg 0x6#4 = 0x11#8 ∧
      (after (committing p0 200#8 128#8 true [Inputs.quiet])).readReg 0x7#4 = 0x21#8 ∧
      (after (committing p0 200#8 128#8 true [Inputs.quiet])).readReg 0x2#4 = 0x08#8 := by decide

/-- V2.8: both axes and the button in one tick, X = 30, Y = 200, pressed. -/
theorem test_sample_three_events :
    (after (committing p0 30#8 200#8 false [Inputs.quiet])).readReg 0x6#4 = 0x66#8 ∧
      (after (committing p0 30#8 200#8 false [Inputs.quiet])).readReg 0x7#4 = 0x16#8 := by decide

/-- V2.13: LATCHCLR keeps the snapshot of the class and centers the latch. -/
theorem test_latchclr :
    (after { running p0 0x12#8 [.lclr] [Inputs.quiet] with lx := .pos, xcls := .pos }).readReg 0x6#4 = 0x01#8 := by decide

/-- V1: the classifier at the edges of its bands. -/
theorem test_classifier :
    [0#8, 50#8, 51#8, 109#8, 110#8, 139#8, 140#8, 179#8, 180#8, 255#8].map cls
      = [.neg, .neg, .dead, .dead, .cen, .cen, .dead, .dead, .pos, .pos] := by decide

/-- V4.14: the first error is kept. -/
theorem test_first_error :
    (after { idle p0 [writes 0x0#4 0xFF#8] with errcode := 0x03#8 }).errcode = 0x03#8 := by decide

/-- V4.13: the sequencer's timeout survives a clear in the same cycle. -/
theorem test_error_survives_clear :
    (after { running p3 0x04#8 [.bw 0x49#8] [writes 0x3#4 0#8] with wcnt := 2#24, initDone := true }).readReg 0x3#4 = 0x06#8 ∧
      (after { running p3 0x04#8 [.bw 0x49#8] [writes 0x3#4 0#8] with wcnt := 2#24, initDone := true }).readReg 0x2#4 = 0x04#8
      := by decide

/-- V6: the register reads after reset. -/
theorem test_reset_reads :
    [0x0#4, 0x1#4, 0x2#4, 0x3#4, 0x4#4, 0x5#4, 0x6#4, 0x7#4, 0x8#4, 0x9#4, 0xF#4].map
        (after (running p0 0x01#8 (progInit p0) [resetPins])).readReg
      = [0x00#8, 0x00#8, 0x00#8, 0x00#8, 0x00#8, 0x00#8, 0x00#8, 0x20#8, 0x00#8, 0x00#8, 0x00#8] := by decide

/-! ### Witnesses: for each statement with hypotheses, states and operands that meet them together -/

/-- DecodeEncodeAgree. -/
theorem witness_decode_encode : decode 0x12#8 = .ok .latchclr ∧ encode .latchclr = 0x12#8 := by decide

/-- OtherBytesIllegal, AcceptanceCheckOrder, IllegalCommandRaises: bytes outside the map, at the edges of its gaps. -/
theorem witness_illegal_bytes :
    ∀ c ∈ [0x00#8, 0x06#8, 0x10#8, 0x13#8, 0xFF#8],
      c ∉ [0x01#8, 0x02#8, 0x03#8, 0x04#8, 0x05#8, 0x11#8, 0x12#8] := by decide

/-- StepRunsDecodedCommand. -/
theorem witness_command_cycle :
    (idle p0 [writes 0x0#4 0x11#8]).inputs.rst = false ∧
      hostAccess (idle p0 [writes 0x0#4 0x11#8]).inputs = .write 0x0#4 0x11#8 ∧ decode 0x11#8 = .ok .sample := by decide

/-- IllegalCommandRaises. -/
theorem witness_illegal_cycle :
    (idle p0 [writes 0x0#4 0x13#8]).inputs.rst = false ∧ (idle p0 [writes 0x0#4 0x13#8]).busy = false ∧
      hostAccess (idle p0 [writes 0x0#4 0x13#8]).inputs = .write 0x0#4 0x13#8 := by decide

/-- ResetValues: a reset edge in the middle of INIT, and a state that holds the reset values. -/
theorem witness_reset :
    (running p0 0x01#8 (progInit p0) [resetPins]).inputs.rst = true ∧ (State.resetWith p0).holdsResetValues :=
  ⟨by decide, by simp only [State.holdsResetValues]; decide⟩

/-- IdleCycle, with a host that does nothing and one that reads. -/
theorem witness_idle_cycle :
    (idle p0 [Inputs.quiet]).hostQuiet = true ∧ (idle p0 [Inputs.quiet]).busy = false ∧
      (idle p0 [withAccess Inputs.quiet (.read 0x2#4)]).hostQuiet = true := by decide

/-- PerCycleUpdates: a cycle in which all three units fire, and one in which none does, with a counter at 0 and at 1. -/
theorem witness_perCycle :
    (committing p3 200#8 30#8 false [Inputs.quiet]).inputs.rst = false ∧
      (committing p3 200#8 30#8 false [Inputs.quiet]).firesX = true ∧
      (committing p3 200#8 30#8 false [Inputs.quiet]).firesY = true ∧
      (committing p3 200#8 30#8 false [Inputs.quiet]).firesB = true ∧
      ({ committing p3 200#8 128#8 false [Inputs.quiet] with hx := 1#24 } : State).firesX = false ∧
      ({ committing p3 200#8 128#8 false [Inputs.quiet] with hx := 1#24 } : State).firesY = false ∧
      (idle p3 [Inputs.quiet]).firesB = false := by decide

/-- PerCycleUpdates, EventAgreesWithLatch, StepKeepsInvariant, FlagWriters, RegisterWriters, SynchronizerDelay: cycles
with their next states: a commit, an idle cycle and the one after it, a reset edge. -/
theorem witness_next :
    step (committing p3 200#8 30#8 false [Inputs.quiet]) = .next (after (committing p3 200#8 30#8 false [Inputs.quiet])) ∧
      step (idle p0 [Inputs.quiet, Inputs.quiet]) = .next (after (idle p0 [Inputs.quiet, Inputs.quiet])) ∧
      step (after (idle p0 [Inputs.quiet, Inputs.quiet])) = .next (after (after (idle p0 [Inputs.quiet, Inputs.quiet]))) ∧
      step (running p0 0x01#8 (progInit p0) [resetPins]) = .next (after (running p0 0x01#8 (progInit p0) [resetPins])) :=
  ⟨rfl, rfl, rfl, rfl⟩

/-- ReadsAndIgnoredWritesChangeNothing, DataWriteSetsData, ErrcodeWriteClears, HoldShowsCounters, AcceptanceCheckOrder:
inputs without reset; the lowest and the highest ignored addresses. -/
theorem witness_register_writes :
    Inputs.quiet.rst = false ∧ (idle p0 []).busy = false ∧
      ∀ a ∈ [0x2#4, 0x4#4, 0x8#4, 0x9#4, 0xF#4], a ≠ 0x0#4 ∧ a ≠ 0x1#4 ∧ a ≠ 0x3#4 := by decide

/-- RegisterViews: the first and the last reserved address. -/
theorem witness_reserved : 0x9#4 ≤ (0x9#4 : HostAddr) ∧ 0x9#4 ≤ (0xF#4 : HostAddr) ∧ ¬ 0x9#4 ≤ (0x8#4 : HostAddr) := by decide

/-- OutputsFollowState: a bus word, a conversion on each channel, and no request. -/
theorem witness_requests :
    (running p0 0x03#8 [.bw 0x38#8] []).busy = true ∧ (running p0 0x03#8 [.bw 0x38#8] []).seq = [.bw 0x38#8] ∧
      (running p0 0x11#8 [.adc .x, .commit] []).busy = true ∧ (running p0 0x11#8 [.adc .x, .commit] []).seq = [.adc .x, .commit] ∧
      (running p0 0x11#8 [.adc .y] []).seq = [.adc .y] ∧
      (running p0 0x03#8 [.bw 0x38#8] []).seq.head? = (running p0 0x03#8 [.bw 0x38#8, .commit] [answer 0#8]).seq.head? ∧
      (running p0 0x03#8 [.bw 0x38#8] []).par = (running p0 0x03#8 [.bw 0x38#8, .commit] [answer 0#8]).par ∧
      ((idle p0 []).outputs 0x0#4).btReq = false ∧ ((idle p0 []).outputs 0x0#4).adcReq = false := by decide

/-- NibbleTransfer: with a settle delay, the shortest one, and without. -/
theorem witness_settle : ({ p0 with tEn := 1#24 } : Params).tEn ≠ 0#24 ∧ p0.tEn = 0#24 := by decide

/-- AcceptanceCheckOrder, CommandWhileBusyRefused: the five outcomes of a CMD write, each with its hypotheses. -/
theorem witness_acceptance :
    (running p0 0x12#8 [.lclr] []).busy = true ∧ (idle p0 []).busy = false ∧ (idle p0 []).initDone = false ∧
      (ready p0 []).busy = false ∧ (ready p0 []).initDone = true ∧
      (∀ c ∈ [0x02#8, 0x05#8], c ∈ [0x02#8, 0x03#8, 0x04#8, 0x05#8]) ∧
      decode 0x11#8 = .ok .sample ∧ 0x11#8 ≠ 0x01#8 ∧ 0x11#8 ∉ [0x02#8, 0x03#8, 0x04#8, 0x05#8] ∧
      decode 0x01#8 = .ok .init ∧ decode 0x02#8 = .ok .clear ∧ decode 0x05#8 = .ok .putc := by decide

/-- AcceptanceCheckOrder: the cycle without the write has a next state. -/
theorem witness_acceptance_next :
    step ((idle p0 []).withEnv [withAccess Inputs.quiet .idle])
      = .next (after ((idle p0 []).withEnv [withAccess Inputs.quiet .idle])) := rfl

/-- InitAccepted, InputCommandsAccepted; DisplayCommandsAccepted; CommandWhileBusyRefused; InitGateRefusals. -/
theorem witness_gates :
    ((idle p0 []).busy = false ∧ (idle p0 []).initDone = false) ∧ ((ready p0 []).busy = false ∧ (ready p0 []).initDone = true) ∧
      (running p0 0x01#8 (progInit p0) []).busy = true := by decide

/-- BusWordCycle: acknowledged, refused, timed out at the bound, waiting just below it, and waiting without a bound at the
top of WCNT. -/
theorem witness_busWord :
    (∀ i ∈ [answer 0#8, nack, Inputs.quiet],
      (running p3 0x04#8 [.bw 0x49#8] [i]).hostQuiet = true ∧ (running p3 0x04#8 [.bw 0x49#8] [i]).busy = true ∧
        (running p3 0x04#8 [.bw 0x49#8] [i]).seq = [.bw 0x49#8]) ∧
    (2#24).toNat + 1 ≥ p3.waitTimeout.toNat ∧ ¬ (1#24).toNat + 1 ≥ p3.waitTimeout.toNat ∧ p3.waitTimeout ≠ 0#24 ∧
      p0.waitTimeout = 0#24 ∧ (running p0 0x04#8 [.bw 0x49#8] [Inputs.quiet]).hostQuiet = true := by decide

/-- AdcCycle, on both channels. -/
theorem witness_adc :
    ∀ ch ∈ [Axis.x, Axis.y], ∀ i ∈ [answer 0xC8#8, Inputs.quiet],
      (running p3 0x11#8 [.adc ch, .btncap] [i]).hostQuiet = true ∧ (running p3 0x11#8 [.adc ch, .btncap] [i]).busy = true ∧
        (running p3 0x11#8 [.adc ch, .btncap] [i]).seq = .adc ch :: [.btncap] := by decide

/-- OneCycleMicroOps and CommitCycle, with a rest and without. -/
theorem witness_oneCycle :
    ∀ u ∈ [MicroOp.btncap, .setinit, .lclr, .commit], ∀ rest ∈ [[], [MicroOp.commit]],
      (running p0 0x11#8 (u :: rest) [Inputs.quiet]).hostQuiet = true ∧ (running p0 0x11#8 (u :: rest) [Inputs.quiet]).busy = true ∧
        (running p0 0x11#8 (u :: rest) [Inputs.quiet]).seq = u :: rest := by decide

/-- ClassifierBands: the edges of the bands between. -/
theorem witness_dead : ∀ v ∈ [51#8, 109#8, 140#8, 179#8], cls v = .dead := by decide

/-- AxisActionCases: the reading of each case at the edge of its band. -/
theorem witness_axis :
    (1#24 : Count) ≠ 0#24 ∧ cls 180#8 = .pos ∧ LatchVal.neg ≠ .pos ∧ cls 50#8 = .neg ∧ LatchVal.center ≠ .neg ∧
      cls 110#8 = .cen ∧ cls 139#8 = .cen ∧ cls 51#8 = .dead := by decide

/-- SequencerErrorWinsSameCycle: a refused bus word, and a bus word and a conversion at the bound. -/
theorem witness_sameCycle :
    nack.rst = false ∧ Inputs.quiet.rst = false ∧ (running p3 0x04#8 [.bw 0x49#8] []).busy = true ∧
      (running p3 0x04#8 [.bw 0x49#8] []).seq = [.bw 0x49#8] ∧ (running p3 0x11#8 [.adc .x] []).busy = true ∧
      (running p3 0x11#8 [.adc .x] []).seq = [.adc .x] ∧
      (running p3 0x04#8 [.bw 0x49#8] []).failsWith (.bw 0x49#8) nack 0x05#8 ∧
      ({ running p3 0x04#8 [.bw 0x49#8] [] with wcnt := 2#24 } : State).failsWith (.bw 0x49#8) Inputs.quiet 0x06#8 ∧
      ({ running p3 0x11#8 [.adc .x] [] with wcnt := 2#24 } : State).failsWith (.adc .x) Inputs.quiet 0x07#8 :=
  ⟨by decide, by decide, by decide, by decide, by decide, by decide, .inl ⟨_, rfl, by decide⟩,
    .inr (.inl ⟨_, rfl, by decide, ⟨by decide, by decide⟩, rfl⟩), .inr (.inr ⟨_, rfl, by decide, ⟨by decide, by decide⟩, rfl⟩)⟩

/-- DelayLastsExactly: the shortest delay and a longer one, while the host writes. -/
theorem witness_delay :
    during 1 State.noReset (running p0 0x02#8 [.dly 1#24] [writes 0x1#4 0xFF#8]) = true ∧
      during 3 State.noReset (running p0 0x02#8 [.dly 3#24] [writes 0x0#4 0x01#8, nack, answer 0#8]) = true ∧
      (running p0 0x02#8 [.dly 3#24] []).busy = true ∧ (running p0 0x02#8 [.dly 3#24] []).seq = [.dly 3#24] ∧
      (running p0 0x02#8 [.dly 3#24] []).wcnt = 0#24 := by decide

/-- BusTimeoutAborts and AdcTimeoutAborts. -/
theorem witness_timeouts :
    during 3 (fun v => v.hostQuiet && !v.inputs.btDone)
        (running p3 0x04#8 [.bw 0x49#8, .bw 0x4D#8] [Inputs.quiet, Inputs.quiet, Inputs.quiet]) = true ∧
      during 3 (fun v => v.hostQuiet && !v.inputs.adcDone)
        (running p3 0x11#8 [.adc .x, .adc .y] [Inputs.quiet, Inputs.quiet, Inputs.quiet]) = true ∧
      p3.waitTimeout ≠ 0#24 ∧ p3.waitTimeout.toNat = 3 ∧ (running p3 0x04#8 [.bw 0x49#8, .bw 0x4D#8] []).busy = true ∧
      (running p3 0x04#8 [.bw 0x49#8, .bw 0x4D#8] []).wcnt = 0#24 := by decide

/-- UnansweredWaitHangs. -/
theorem witness_hang :
    during 2 (fun v => v.noReset && !v.inputs.btDone) (running p0 0x04#8 [.bw 0x49#8] [writes 0x0#4 0x11#8, Inputs.quiet]) = true ∧
      during 2 (fun v => v.noReset && !v.inputs.adcDone) (running p0 0x11#8 [.adc .y] [writes 0x0#4 0x11#8, Inputs.quiet]) = true ∧
      p0.waitTimeout = 0#24 ∧ (running p0 0x04#8 [.bw 0x49#8] []).busy = true := by decide

/-- InitPerformed, with every delay 0 and with every delay 1. -/
theorem witness_init :
    ∀ c ∈ [(p0, 37), (p1, 54)],
      (idle c.1 (Inputs.quiet :: legalPins 0#8 (progInit c.1))).busy = false ∧
        (idle c.1 (Inputs.quiet :: legalPins 0#8 (progInit c.1))).initDone = false ∧
        c.1.tPowerOn.toNat + c.1.tInit1.toNat + c.1.tInit2.toNat + c.1.tInit3.toNat + 12 * c.1.tEn.toNat + c.1.tClear.toNat + 37
          = c.2 ∧
        (match exec .init (idle c.1 (Inputs.quiet :: legalPins 0#8 (progInit c.1))) with
          | .next t => decide (t.par = c.1) && during c.2 State.busAnswersOk t && during c.2 State.busy t
          | .fault _ => false
          | .refused _ => false) = true := by decide +kernel

/-- A cycle of an ADC that answers with sample `v`, the button at level `b`. -/
def samplePins (v : Byte) (b : Bool) : Inputs := { Inputs.quiet with adcDone := true, adcData := v, btnN := b }

/-- ByteCommandsPerformed: CLEAR with its wait, WRCMD, WRDATA, and PUTC of a newline and of another character, the operand
at both ends of its range, with every delay 0 and with every delay 1. -/
theorem witness_byteCommands :
    ∀ p ∈ [p0, p1], ∀ c ∈ [(Instr.clear, 0x55#8), (.wrcmd, 0x00#8), (.wrdata, 0xFF#8), (.putc, 0x0A#8), (.putc, 0x0B#8)],
      ({ ready p (Inputs.quiet :: legalPins 0#8 (prog p c.2 c.1)) with data := c.2 } : State).busy = false ∧
        ({ ready p (Inputs.quiet :: legalPins 0#8 (prog p c.2 c.1)) with data := c.2 } : State).initDone = true ∧
        (match exec c.1 { ready p (Inputs.quiet :: legalPins 0#8 (prog p c.2 c.1)) with data := c.2 } with
          | .next t =>
            during (6 + 2 * p.tEn.toNat + if c.1 = .clear then p.tClear.toNat else 0) (fun v => v.busy && v.busAnswersOk) t
          | .fault _ => false
          | .refused _ => false) = true := by decide +kernel

/-- SamplePerformed and LatchclrPerformed, with a host that reads meanwhile. -/
theorem witness_inputCommands :
    (idle p3 [writes 0x0#4 0x11#8, samplePins 200#8 false, samplePins 30#8 true, withAccess Inputs.quiet (.read 0x2#4), Inputs.quiet]).env
        = writes 0x0#4 0x11#8 :: samplePins 200#8 false :: samplePins 30#8 true ::
          withAccess Inputs.quiet (.read 0x2#4) :: Inputs.quiet :: [] ∧
      (∀ i ∈ [samplePins 200#8 false, samplePins 30#8 true, withAccess Inputs.quiet (.read 0x2#4), Inputs.quiet],
        i.rst = false ∧ (i.hEn = false ∨ i.hWe = false)) ∧
      (samplePins 200#8 false).adcDone = true ∧ (samplePins 30#8 true).adcDone = true ∧ (idle p3 []).busy = false := by decide

/-- BusTraceFollowsSequence: three bus words, one of them slow, while the host writes. -/
theorem witness_busTrace :
    during 3 (fun v => v.busy && v.noAbort)
      (running p3 0x04#8 [.bw 0x49#8, .bw 0x4D#8, .bw 0x49#8] [answer 0#8, writes 0x1#4 0x42#8, answer 0#8]) = true := by decide

/-- CommandDurations, for each command, every response in its request cycle: the minimum durations of
70_reset_and_hazards.md R135. -/
theorem witness_durations :
    ∀ c ∈ [(Instr.init, false, 37), (.clear, true, 6), (.wrcmd, true, 6), (.wrdata, true, 6), (.putc, true, 6),
        (.sample, false, 4), (.latchclr, false, 1)],
      ({ idle p0 (Inputs.quiet :: legalPins 0#8 (prog p0 0#8 c.1)) with initDone := c.2.1 } : State).busy = false ∧
        (match exec c.1 { idle p0 (Inputs.quiet :: legalPins 0#8 (prog p0 0#8 c.1)) with initDone := c.2.1 } with
          | .next t => t.busy && during c.2.2 (fun v => v.busy && v.noAbort) t && !(afterRun c.2.2 t).busy
          | .fault _ => false
          | .refused _ => false) = true := by decide +kernel

/-- A LATCHCLR just accepted, its coming cycle with inputs `i`. -/
def clearing (i : Inputs) : State := { running p3 0x12#8 [.lclr] [i] with cur := 0x12#8 }

/-- BoundedWaitsEnd and StepKeepsInvariant: a running state that meets the invariant. -/
theorem witness_inv : (clearing Inputs.quiet).Inv where
  busy_iff := by decide
  program := fun _ => ⟨.latchclr, by decide, ⟨[], rfl⟩⟩
  initGate := by decide
  displayGate := by decide
  delayCount := by intro n rest _ h; simp [clearing, running] at h
  waitCount := by decide
  errCode := by decide
  eventX := by decide
  eventY := by decide
  holdX := by decide
  holdY := by decide
  holdB := by decide

/-- BoundedWaitsEnd, StepKeepsInvariant. -/
theorem witness_boundedWaits :
    (clearing Inputs.quiet).par.waitTimeout ≠ 0#24 ∧
      during (waitBound (clearing Inputs.quiet).par.waitTimeout.toNat (clearing Inputs.quiet).seq) State.noReset
        (clearing Inputs.quiet) = true ∧
      step (clearing Inputs.quiet) = .next (after (clearing Inputs.quiet)) := ⟨by decide, by decide, rfl⟩

/-- The last bus word of a WRCMD of 0xC0 on a display that is initialised. -/
def writing : State :=
  { running p0 0x03#8 [.bw 0x08#8] [answer 0#8] with opr := 0xC0#8, initDone := true }

/-- EmittedBusWords. -/
theorem witness_writing_inv : writing.Inv where
  busy_iff := by decide
  program := fun _ => ⟨.wrcmd, by decide, ⟨[.bw 0xC8#8, .bw 0xCC#8, .bw 0xC8#8, .bw 0x08#8, .bw 0x0C#8], by decide⟩⟩
  initGate := by decide
  displayGate := by decide
  delayCount := by intro n rest _ h; simp [writing, running] at h
  waitCount := by decide
  errCode := by decide
  eventX := by decide
  eventY := by decide
  holdX := by decide
  holdY := by decide
  holdB := by decide

/-- EmittedBusWords. -/
theorem witness_busWord_presented : writing.busWord? = some 0x08#8 := by decide

/-- FlagWriters: a cycle for each way BUSY, INIT_DONE, VALID and ERRCODE change. -/
theorem witness_flags :
    (after (idle p0 [writes 0x0#4 0x11#8])).busy = true ∧ (after (running p0 0x12#8 [.lclr] [Inputs.quiet])).busy = false ∧
      (after (running p0 0x01#8 [.setinit] [Inputs.quiet])).initDone = true ∧
      (after { running p0 0x04#8 [.bw 0x49#8] [nack] with initDone := true }).initDone = false ∧
      (after (committing p0 0#8 0#8 true [Inputs.quiet])).valid = true ∧
      (after { idle p0 [resetPins] with valid := true }).valid = false ∧
      (after (idle p0 [writes 0x0#4 0xFF#8])).errcode ≠ 0x00#8 ∧
      (after { idle p0 [writes 0x3#4 0xFF#8] with errcode := 0x07#8 }).errcode = 0x00#8 := by decide

/-- RegisterWriters: a cycle without reset that performs nothing, and one that changes DATA. -/
theorem witness_registers :
    (idle p0 [Inputs.quiet]).inputs.rst = false ∧ (idle p0 [Inputs.quiet]).performs .commit = false ∧
      (idle p0 [Inputs.quiet]).performs .lclr = false ∧ (idle p0 [Inputs.quiet]).performs (.adc .x) = false ∧
      (idle p0 [Inputs.quiet]).performs (.adc .y) = false ∧ (idle p0 [Inputs.quiet]).performs .btncap = false ∧
      (after (idle p0 [writes 0x1#4 0x41#8])).data ≠ (idle p0 [writes 0x1#4 0x41#8]).data ∧
      (after (idle p0 [writes 0x0#4 0x11#8])).cur ≠ (idle p0 [writes 0x0#4 0x11#8]).cur := by decide

/-- FirstErrorKept: two refused commands and an abort while an error stands. -/
theorem witness_firstError :
    during 2 (fun v => v.noReset && !(v.inputs.hEn && v.inputs.hWe && v.inputs.haddr == 0x3#4))
        { idle p0 [writes 0x0#4 0x02#8, writes 0x0#4 0xFF#8] with errcode := 0x03#8 } = true ∧ 0x03#8 ≠ (0x00#8 : Byte) := by decide

/-- EventAgreesWithLatch: a commit performs no LCLR, and its state meets the premise with an event reported. -/
theorem witness_eventsAgree :
    (committing p3 200#8 30#8 false [Inputs.quiet]).performs .lclr = false ∧
      ({ committing p3 200#8 30#8 false [Inputs.quiet] with evXPos := true, lx := .pos } : State).eventsAgree := by
  refine ⟨by decide, ?_⟩
  simp only [State.eventsAgree]; decide

/-- SynchronizerDelay. -/
theorem witness_synchronizer :
    (idle p0 [samplePins 0#8 false, Inputs.quiet]).inputs.rst = false ∧
      (after (idle p0 [samplePins 0#8 false, Inputs.quiet])).inputs.rst = false := by decide

/-- The pins of a SAMPLE after its acceptance: X, Y, button capture, commit. -/
def tickPins (x y : Byte) (b : Bool) : List Inputs :=
  [writes 0x0#4 0x11#8, samplePins x b, samplePins y b, Inputs.quiet, Inputs.quiet]

/-- EventSpacing: axis events exactly P_AXIS_HOLDOFF + 1 edges apart. -/
theorem witness_axisSpacing :
    (committing p3 200#8 30#8 true (Inputs.quiet :: tickPins 30#8 200#8 true)).firesX = true ∧
      (committing p3 200#8 30#8 true (Inputs.quiet :: tickPins 30#8 200#8 true)).firesY = true ∧
      during 5 State.noReset (committing p3 200#8 30#8 true (Inputs.quiet :: tickPins 30#8 200#8 true)) = true ∧
      (afterRun 5 (committing p3 200#8 30#8 true (Inputs.quiet :: tickPins 30#8 200#8 true))).firesX = true ∧
      (afterRun 5 (committing p3 200#8 30#8 true (Inputs.quiet :: tickPins 30#8 200#8 true))).firesY = true := by decide +kernel

/-- EventSpacing: button presses exactly P_BTN_HOLDOFF + 1 edges apart, with a release between. -/
theorem witness_buttonSpacing :
    (committing p3 128#8 128#8 false (Inputs.quiet :: tickPins 128#8 128#8 true ++ tickPins 128#8 128#8 false)).firesB = true ∧
      during 10 State.noReset
        (committing p3 128#8 128#8 false (Inputs.quiet :: tickPins 128#8 128#8 true ++ tickPins 128#8 128#8 false)) = true ∧
      (afterRun 10
        (committing p3 128#8 128#8 false (Inputs.quiet :: tickPins 128#8 128#8 true ++ tickPins 128#8 128#8 false))).firesB = true := by
  decide +kernel

/-- HeldDeflectionFiresOnce: from the state right after the event, the direction read again, then a reading between the
bands, on each axis. -/
theorem witness_heldDeflection :
    (∀ v ∈ [180#8, 140#8],
      during 2 (fun w => w.noReset && !w.performs .lclr &&
          (!w.performs .commit || cls w.xs == .dead || (cls w.xs).dir? == some .pos))
        { committing p0 v v true [Inputs.quiet, Inputs.quiet] with lx := .pos, evXPos := true } = true) ∧
    (∀ v ∈ [50#8, 51#8],
      during 2 (fun w => w.noReset && !w.performs .lclr &&
          (!w.performs .commit || cls w.ys == .dead || (cls w.ys).dir? == some .neg))
        { committing p0 v v true [Inputs.quiet, Inputs.quiet] with ly := .neg, evYNeg := true } = true) ∧
    Dir.pos.latch = .pos ∧ Dir.neg.latch = .neg ∧ (committing p0 0#8 0#8 true [Inputs.quiet]).evXPos = false := by
  decide +kernel

/-- HeldButtonFiresOnce. -/
theorem witness_heldButton :
    ({ committing p0 0#8 0#8 false [Inputs.quiet] with bprev := false } : State).bprev = false ∧
      during 1 (fun v => v.noReset && (!v.performs .commit || !v.bs))
        { committing p0 0#8 0#8 false [Inputs.quiet] with bprev := false } = true := by decide

/-- DataDoesNotAlterRunningCommand and CurAndOprInvisible. -/
theorem witness_running :
    during 2 State.busy (running p0 0x04#8 [.bw 0x49#8, .bw 0x4D#8] [writes 0x1#4 0x42#8, answer 0#8]) = true ∧
      run 2 (running p0 0x04#8 [.bw 0x49#8, .bw 0x4D#8] [writes 0x1#4 0x42#8, answer 0#8])
        = .next (afterRun 2 (running p0 0x04#8 [.bw 0x49#8, .bw 0x4D#8] [writes 0x1#4 0x42#8, answer 0#8])) :=
  ⟨by decide, rfl⟩

end Sys2Proof.Tests
end

section
/-! The host registers as they read (10_state.md R16 to R26), the host writes that do nothing, and the reset values
(R35): the lemmas, then the obligations about them. -/

namespace Sys2Proof.Proofs

open Sys2Proof.Machine Sys2Proof.Laws

/-! ### What each address reads -/

section Reads

variable (s : State)

@[simp] theorem readReg_data : s.readReg 0x1#4 = s.data := rfl
@[simp] theorem readReg_status : s.readReg 0x2#4 = s.statusByte := rfl
@[simp] theorem readReg_errcode : s.readReg 0x3#4 = s.errcode := rfl
@[simp] theorem readReg_xraw : s.readReg 0x4#4 = s.xraw := rfl
@[simp] theorem readReg_yraw : s.readReg 0x5#4 = s.yraw := rfl
@[simp] theorem readReg_class : s.readReg 0x6#4 = s.classByte := rfl
@[simp] theorem readReg_event : s.readReg 0x7#4 = s.eventByte := rfl
@[simp] theorem readReg_hold : s.readReg 0x8#4 = s.holdByte := rfl

end Reads

/-! ### HOLD, bit by bit (10_state.md R25) -/

/-- Five zero bits above three flags: each flag stands at its own bit. -/
theorem zeros_append_flags_bits (b2 b1 b0 : Bool) :
    let v : Byte := 0#5 ++ BitVec.ofBool b2 ++ BitVec.ofBool b1 ++ BitVec.ofBool b0
    v.getLsbD 0 = b0 ∧ v.getLsbD 1 = b1 ∧ v.getLsbD 2 = b2 ∧ v.extractLsb' 3 5 = 0#5 := by
  cases b2 <;> cases b1 <;> cases b0 <;> decide

theorem holdByte_bits (s : State) :
    s.holdByte.getLsbD 0 = decide (s.hx ≠ 0#24) ∧ s.holdByte.getLsbD 1 = decide (s.hy ≠ 0#24) ∧
      s.holdByte.getLsbD 2 = decide (s.hb ≠ 0#24) ∧ s.holdByte.extractLsb' 3 5 = 0#5 := by
  simp only [ne_eq, decide_not, ← beq_eq_decide]
  exact zeros_append_flags_bits (s.hb != 0#24) (s.hy != 0#24) (s.hx != 0#24)

/-! ### Ignored writes (10_state.md R26) -/

/-- A host write other than to CMD, DATA and ERRCODE leaves the cycle as it is without a host access. -/
theorem registerCycle_write_ignored (s : State) {a : HostAddr} (v : Byte) (hdata : a ≠ 0x1#4) (herr : a ≠ 0x3#4) :
    registerCycle s (.write a v) = cycle s false none := by
  rcases registerCycle_cases s (.write a v) with ⟨w, h, _⟩ | ⟨w, h, _⟩ | ⟨h, _, _⟩
  · cases h; exact absurd rfl hdata
  · cases h; exact absurd rfl herr
  · exact h

/-- A step whose host writes elsewhere than to CMD, DATA and ERRCODE is the step without the access. -/
theorem step_write_ignored (s : State) {i : Inputs} (rest : List Inputs) {a : HostAddr} (v : Byte) (hr : i.rst = false)
    (hcmd : a ≠ 0x0#4) (hdata : a ≠ 0x1#4) (herr : a ≠ 0x3#4) :
    step (s.withEnv (withAccess i (.write a v) :: rest)) = step (s.withEnv (withAccess i .idle :: rest)) := by
  rw [step_placed hr (by intro c h; cases h; exact hcmd rfl), step_placed hr (by simp),
    registerCycle_write_ignored _ v hdata herr, registerCycle_idle, cycle_access]

/-! ### The states that hold the reset values -/

theorem resetWith_holdsResetValues (p : Params) : (State.resetWith p).holdsResetValues := by
  simp [State.holdsResetValues, State.resetWith, AxisClass.code, LatchVal.code]

/-- R35's table does not mention the model's own fields, which are all that a reset edge leaves different from
`State.resetWith`. -/
theorem resetCycle_holdsResetValues (s : State) : (resetCycle s).holdsResetValues :=
  resetWith_holdsResetValues s.par

/-! ### The register views of such a state -/

section Views

variable {s : State}

theorem statusByte_of_reset (herr : s.errcode = 0x00#8) (hbusy : s.busy = false) (hinit : s.initDone = false)
    (hvalid : s.valid = false) : s.statusByte = 0x00#8 := by
  have hflag : s.err = false := by simp [State.err, herr, errNone]
  rw [State.statusByte, hflag, hbusy, hinit, hvalid]; decide

theorem classByte_of_reset (hx : s.xcls.code = 0b00#2) (hy : s.ycls.code = 0b00#2) (hlx : s.lx.code = 0b00#2)
    (hly : s.ly.code = 0b00#2) : s.classByte = 0x00#8 := by
  rw [State.classByte, hx, hy, hlx, hly]; decide

/-- EVENT reads 0x20 after reset and not 0: BLEVEL shows the released button. -/
theorem eventByte_of_reset (hxp : s.evXPos = false) (hxn : s.evXNeg = false) (hyp : s.evYPos = false)
    (hyn : s.evYNeg = false) (hpress : s.evBPress = false) (hlevel : s.bprev = true) : s.eventByte = 0x20#8 := by
  rw [State.eventByte, hxp, hxn, hyp, hyn, hpress, hlevel]; decide

theorem holdByte_of_reset (hx : s.hx = 0#24) (hy : s.hy = 0#24) (hb : s.hb = 0#24) : s.holdByte = 0x00#8 := by
  rw [State.holdByte, hx, hy, hb]; decide

end Views

/-- The register reads of R35. -/
theorem reads_of_holdsResetValues {s : State} (h : s.holdsResetValues) :
    s.readReg 0x1#4 = 0x00#8 ∧ s.readReg 0x2#4 = 0x00#8 ∧ s.readReg 0x3#4 = 0x00#8 ∧ s.readReg 0x4#4 = 0x00#8 ∧
      s.readReg 0x5#4 = 0x00#8 ∧ s.readReg 0x6#4 = 0x00#8 ∧ s.readReg 0x7#4 = 0x20#8 ∧ s.readReg 0x8#4 = 0x00#8 := by
  obtain ⟨hdata, herr, hxraw, hyraw, hxcls, hycls, hxp, hxn, hyp, hyn, hpress, hbusy, hinit, hvalid, _, _, _, _, hlx, hly,
    hhx, hhy, hhb, hlevel, _⟩ := h
  rw [readReg_data, readReg_status, readReg_errcode, readReg_xraw, readReg_yraw, readReg_class, readReg_event,
    readReg_hold]
  exact ⟨hdata, statusByte_of_reset herr hbusy hinit hvalid, herr, hxraw, hyraw,
    classByte_of_reset hxcls hycls hlx hly, eventByte_of_reset hxp hxn hyp hyn hpress hlevel,
    holdByte_of_reset hhx hhy hhb⟩

/-! ### The obligations -/

/-- Settles O8: a reset edge is `resetCycle`, which leaves R35's values in every element, and the register views follow
from those values alone. -/
theorem resetValues : Obligations.ResetValues := by
  refine ⟨fun s hrst => ?_, resetWith_holdsResetValues Config.params, fun s h => reads_of_holdsResetValues h⟩
  exact ⟨resetCycle s, step_reset hrst, resetCycle_holdsResetValues s, resetCycle_par s⟩

/-- Settles O15: HOLD's bits from its layout, its reset read from the reset values of the counters, and its ignored write
from the rule for every address but CMD, DATA and ERRCODE. -/
theorem holdShowsCounters : Obligations.HoldShowsCounters := by
  refine ⟨fun s => ?_, ?_, fun s i rest v hr => ?_⟩
  · rw [readReg_hold]
    exact holdByte_bits s
  · rw [readReg_hold]
    exact holdByte_of_reset rfl rfl rfl
  · exact step_write_ignored s rest v hr (by decide) (by decide) (by decide)

end Sys2Proof.Proofs
end

section
/-! The sequencer (40_sequencer.md): the per-cycle updates beside a commit (R64), the list of each command (R67), and the
delay (R71): the lemmas, then the obligations about them. -/

namespace Sys2Proof.Proofs

open Sys2Proof.Machine Sys2Proof.Laws

/-! ### The micro-op a cycle performs -/

theorem performs_iff (s : State) (u : MicroOp) :
    s.performs u = true ↔ s.inputs.rst = false ∧ s.busy = true ∧ ∃ rest, s.seq = u :: rest := by
  simp only [State.performs, Bool.and_eq_true, Bool.not_eq_true', beq_iff_eq, and_assoc, List.head?_eq_some_iff]

/-- A running command accepts nothing: its cycle is the host-quiet one, but for DATA and ERRCODE. -/
theorem step_busy {s : State} (hr : s.inputs.rst = false) (hb : s.busy = true) :
    ∃ d e, step s = .next (settled (cycle s false none) d e) := by
  rcases step_shape hr with ⟨d, e, h, _⟩ | ⟨_, _, hidle, _⟩
  · exact ⟨d, e, h⟩
  · rw [hb] at hidle; cases hidle

/-! ### The holdoff counters in one cycle (R64; 42_input.md R93, R96) -/

/-- The axis action rule loads the holdoff exactly where it reports an event. -/
theorem axisRule_load (v : Byte) (l : LatchVal) (h : Count) : (axisRule v l h).load = (axisRule v l h).fired.isSome := by
  unfold axisRule
  split
  · rfl
  · split <;> split <;> rfl

/-- No micro-op but COMMIT writes a holdoff counter. -/
theorem uopEffect_keeps_holdoff {u : MicroOp} (h : u ≠ .commit) (s acc : State) :
    (uopEffect s u acc).hx = acc.hx ∧ (uopEffect s u acc).hy = acc.hy ∧ (uopEffect s u acc).hb = acc.hb := by
  cases u with
  | commit => exact absurd rfl h
  | adc ch => cases ch <;> exact ⟨rfl, rfl, rfl⟩
  | bw _ | dly _ | btncap | lclr | setinit => exact ⟨rfl, rfl, rfl⟩

theorem seqStep_commit {s : State} (h : s.performs .commit = true) (acc : State) :
    ∃ rest, seqStep s acc = popSeq rest (commitSample s acc) := by
  obtain ⟨_, hb, rest, hs⟩ := (performs_iff s .commit).mp h
  exact ⟨rest, by simp [seqStep, hb, hs, uopVerdict, uopEffect]⟩

theorem seqStep_keeps_holdoff {s : State} (hr : s.inputs.rst = false) (h : s.performs .commit = false) (acc : State) :
    (seqStep s acc).hx = acc.hx ∧ (seqStep s acc).hy = acc.hy ∧ (seqStep s acc).hb = acc.hb := by
  rcases seqStep_cases s acc with ⟨_, e, _⟩ | ⟨_, _, e, _⟩ | ⟨u, rest, hb, hs, ⟨_, e, _⟩ | ⟨_, e, _⟩ | ⟨x, _, e, _⟩⟩
  case inr.inr.inr.inl =>
    have hu : u ≠ .commit := by
      rintro rfl
      rw [(performs_iff s .commit).mpr ⟨hr, hb, rest, hs⟩] at h
      cases h
    rw [e]
    exact uopEffect_keeps_holdoff hu s acc
  all_goals rw [e]; exact ⟨rfl, rfl, rfl⟩

/-- Each holdoff counter after the sequencer: its parameter where this cycle's commit reports an event of its unit. -/
theorem seqStep_holdoff {s : State} (hr : s.inputs.rst = false) (acc : State) :
    (seqStep s acc).hx = (if s.firesX then s.par.axisHoldoff else acc.hx) ∧
      (seqStep s acc).hy = (if s.firesY then s.par.axisHoldoff else acc.hy) ∧
      (seqStep s acc).hb = (if s.firesB then s.par.btnHoldoff else acc.hb) := by
  cases h : s.performs .commit with
  | true =>
    obtain ⟨rest, e⟩ := seqStep_commit h acc
    simp [e, State.firesX, State.firesY, State.firesB, h, axisRule_load]
  | false =>
    simpa [State.firesX, State.firesY, State.firesB, h] using seqStep_keeps_holdoff hr h acc

/-- What every cycle without reset shares with the host-quiet cycle: the synchronizer and the holdoff counters, which
neither a host access nor acceptance writes. -/
theorem step_updates_eq_cycle {s t : State} (hr : s.inputs.rst = false) (h : step s = .next t) :
    t.sync1 = (cycle s false none).sync1 ∧ t.sync2 = (cycle s false none).sync2 ∧ t.hx = (cycle s false none).hx ∧
      t.hy = (cycle s false none).hy ∧ t.hb = (cycle s false none).hb := by
  rcases step_shape hr with ⟨d, e, hs, _⟩ | ⟨_, i, hidle, _, _, _, hs⟩
  · obtain rfl : settled (cycle s false none) d e = t := by simpa [hs] using h
    exact ⟨rfl, rfl, rfl, rfl, rfl⟩
  · obtain rfl : accept s (encode i) (prog s.par s.data i) (perCycle s) = t := by simpa [hs] using h
    rw [cycle_idle_plain hidle]
    exact ⟨rfl, rfl, rfl, rfl, rfl⟩

/-! ### No list holds a delay of 0 (R71) -/

section NoZeroDelay

variable (p : Params)

theorem dly_zero_notMem_delay (n : Count) : .dly 0#24 ∉ delay n := by
  unfold delay
  split
  · exact List.not_mem_nil
  · next h => simpa using Ne.symm h

theorem dly_zero_notMem_nib (n : Nibble) (rs : BitVec 1) : .dly 0#24 ∉ nib p n rs := by
  simp [nib, dly_zero_notMem_delay]

theorem dly_zero_notMem_byteSeq (b : Byte) (rs : BitVec 1) : .dly 0#24 ∉ byteSeq p b rs := by
  simp [byteSeq, dly_zero_notMem_nib]

/-- Every list is put together from delays, nibbles, bytes and other micro-ops. -/
theorem dly_zero_notMem_prog (d : Byte) (i : Instr) : .dly 0#24 ∉ prog p d i := by
  cases i with
  | init => simp [prog, progInit, dly_zero_notMem_delay, dly_zero_notMem_nib, dly_zero_notMem_byteSeq]
  | clear => simp [prog, progClear, dly_zero_notMem_delay, dly_zero_notMem_byteSeq]
  | wrcmd => exact dly_zero_notMem_byteSeq p d _
  | wrdata => exact dly_zero_notMem_byteSeq p d _
  | putc =>
    rw [prog, progPutc]
    split <;> exact dly_zero_notMem_byteSeq p _ _
  | sample => simp [prog, progSample]
  | latchclr => simp [prog, progLatchclr]

end NoZeroDelay

/-! ### Runs, taken apart at their last cycle -/

theorem run_succ_last {k : Nat} {s t : State} (h : run k s = .next t) : run (k + 1) s = step t := by
  induction k generalizing s with
  | zero =>
    obtain rfl : s = t := by simpa using h
    cases hs : step s <;> simp [run, hs]
  | succ k ih =>
    cases hs : step s with
    | next u =>
      rw [run_succ hs] at h ⊢
      exact ih h
    | fault f => simp [run, hs] at h
    | refused r => simp [run, hs] at h

/-- What holds during `m` cycles holds in the state that each of them starts from. -/
theorem during_run {m k : Nat} {p : State → Bool} {s t : State} (hd : during m p s = true) (hk : k < m)
    (h : run k s = .next t) : p t = true := by
  induction k generalizing m s with
  | zero =>
    cases h
    obtain ⟨m, rfl⟩ := Nat.exists_eq_succ_of_ne_zero hk.ne'
    exact (Bool.and_eq_true_iff.mp hd).1
  | succ k ih =>
    obtain ⟨m, rfl⟩ := Nat.exists_eq_succ_of_ne_zero (Nat.ne_zero_of_lt hk)
    cases hs : step s with
    | next u =>
      rw [during_succ hs, Bool.and_eq_true] at hd
      rw [run_succ hs] at h
      exact ih hd.2 (Nat.lt_of_succ_lt_succ hk) h
    | fault f => simp [run, hs] at h
    | refused r => simp [run, hs] at h

/-! ### The delay (R71) -/

/-- WCNT's increment counts one up below its top, and stays there. -/
theorem satInc_toNat (w : Count) : (satInc w).toNat = min (w.toNat + 1) (2 ^ 24 - 1) := by
  unfold satInc
  split
  · next h => simp [h]
  · next h =>
    have htop : w.toNat ≠ 2 ^ 24 - 1 := fun hw => h (BitVec.eq_of_toNat_eq (by simpa using hw))
    have hw := w.isLt
    simp only [BitVec.toNat_add, BitVec.toNat_ofNat]
    omega

/-- `s` performs the delay `DLY(n)` with `rest` after it, and `k` of its cycles are over. -/
def InDelay (n : Count) (rest : List MicroOp) (k : Nat) (s : State) : Prop :=
  s.busy = true ∧ s.seq = .dly n :: rest ∧ s.wcnt.toNat = k

section Delay

variable {n : Count} {rest : List MicroOp} {k : Nat} {s : State}

theorem inDelay_no_request (h : InDelay n rest k s) : s.btReq = false ∧ s.adcReq = false := by
  obtain ⟨_, hseq, _⟩ := h
  simp [State.btReq, State.busWord?, State.adcReq, State.adcAxis?, hseq]

/-- Before the last cycle of a delay: it stays the head, one more cycle counted. -/
theorem step_delay_stays (h : InDelay n rest k s) (hr : s.inputs.rst = false) (hk : k + 1 < n.toNat) :
    ∃ t, step s = .next t ∧ InDelay n rest (k + 1) t := by
  obtain ⟨hb, hseq, hw⟩ := h
  obtain ⟨d, e, hs⟩ := step_busy hr hb
  have hstay : seqStep s (perCycle s) = { perCycle s with wcnt := satInc s.wcnt } := by
    have hne : s.wcnt.toNat + 1 ≠ n.toNat := by omega
    simp [seqStep, hb, hseq, uopVerdict, hne]
  have hn := n.isLt
  refine ⟨_, hs, ?_, ?_, ?_⟩
  · simp [cycle, hstay, hb]
  · simp [cycle, hstay, hseq]
  · simp only [settled_wcnt, cycle, hstay, satInc_toNat]
    omega

/-- The last cycle of a delay pops it. -/
theorem step_delay_ends (h : InDelay n rest k s) (hr : s.inputs.rst = false) (hk : k + 1 = n.toNat) :
    ∃ t, step s = .next t ∧ t.seq = rest ∧ t.wcnt = 0#24 ∧ t.busy = decide (rest ≠ []) := by
  obtain ⟨hb, hseq, hw⟩ := h
  obtain ⟨d, e, hs⟩ := step_busy hr hb
  have hpop : seqStep s (perCycle s) = popSeq rest (perCycle s) := by
    simp [seqStep, hb, hseq, uopVerdict, uopEffect, hw, hk]
  refine ⟨_, hs, ?_, ?_, ?_⟩
  · simp [cycle, hpop]
  · simp [cycle, hpop]
  · cases rest <;> simp [cycle, hpop]

/-- From the first cycle of a delay, `k` cycles later and before its end, it is still in progress. -/
theorem run_inDelay (h : InDelay n rest 0 s) (hd : during n.toNat State.noReset s = true) (hk : k < n.toNat) :
    ∃ t, run k s = .next t ∧ InDelay n rest k t := by
  induction k with
  | zero => exact ⟨s, rfl, h⟩
  | succ k ih =>
    obtain ⟨u, hu, hin⟩ := ih (Nat.lt_of_succ_lt hk)
    have hr : u.inputs.rst = false := by
      simpa [State.noReset] using during_run hd (Nat.lt_of_succ_lt hk) hu
    rw [run_succ_last hu]
    exact step_delay_stays hin hr hk

theorem run_delay_ends (h : InDelay n rest 0 s) (hd : during n.toNat State.noReset s = true) (hn : n ≠ 0#24) :
    ∃ t, run n.toNat s = .next t ∧ t.seq = rest ∧ t.wcnt = 0#24 ∧ t.busy = decide (rest ≠ []) := by
  obtain ⟨k, hk⟩ : ∃ k, n.toNat = k + 1 :=
    Nat.exists_eq_succ_of_ne_zero fun h0 => hn (BitVec.eq_of_toNat_eq h0)
  have hlt : k < n.toNat := by omega
  obtain ⟨u, hu, hin⟩ := run_inDelay h hd hlt
  have hr : u.inputs.rst = false := by simpa [State.noReset] using during_run hd hlt hu
  rw [hk, run_succ_last hu]
  exact step_delay_ends hin hr hk.symm

end Delay

/-! ### The obligations -/

/-- Settles O18: the lists are the model's own, with the constants of 00_scope.md R8 at their values. -/
theorem programTable : Obligations.ProgramTable :=
  fun _ _ => ⟨rfl, rfl, rfl, rfl, rfl, rfl, rfl, fun _ => rfl⟩

/-- Settles O10: every cycle without reset agrees with the host-quiet cycle in what R64 updates, and there the sequencer
loads a counter only in a commit that reports an event of its unit. -/
theorem perCycleUpdates : Obligations.PerCycleUpdates := by
  intro s t hr h
  obtain ⟨hsync1, hsync2, hhx, hhy, hhb⟩ := step_updates_eq_cycle hr h
  obtain ⟨hx, hy, hb⟩ := seqStep_holdoff hr (perCycle s)
  exact ⟨hsync1.trans (cycle_sync1 s _ _), hsync2.trans (cycle_sync2 s _ _), hhx.trans hx, hhy.trans hy, hhb.trans hb⟩

/-- Settles O35, by induction on the cycles of the delay: each before the last counts one up, the last pops. -/
theorem delayLastsExactly : Obligations.DelayLastsExactly := by
  refine ⟨fun s n rest hb hseq hw hn hd => ?_, fun p d i => dly_zero_notMem_prog p d i⟩
  have hstart : InDelay n rest 0 s := ⟨hb, hseq, by rw [hw]; rfl⟩
  refine ⟨run_delay_ends hstart hd hn, fun k hk => ?_⟩
  obtain ⟨t, ht, hin⟩ := run_inDelay hstart hd hk
  obtain ⟨hbt, hadc⟩ := inDelay_no_request hin
  obtain ⟨hbusy, hseq', hcnt⟩ := hin
  exact ⟨t, ht, hseq', hcnt, hbusy, hbt, hadc⟩

end Sys2Proof.Proofs
end

section
/-! The LCDC framer (41_display.md R79, R80): the bus word's formula, what a nibble and a byte transfer send and how long
they settle: the lemmas, then the obligations about them. -/

namespace Sys2Proof.Proofs

open Sys2Proof.Machine Sys2Proof.Laws

/-! ### The bus word (30_encoding.md R57) -/

section BusWord

variable (n : Nibble) (en rs : BitVec 1)

/-- The fields of BW8, laid side by side in `busWord`, stand where the formula shifts them: bit by bit. -/
theorem busWord_eq_formula :
    busWord n en rs = (n.setWidth 8 <<< 4) ||| 0x08#8 ||| (en.setWidth 8 <<< 2) ||| rs.setWidth 8 := by
  apply BitVec.eq_of_getLsbD_eq
  intro i hi
  change (n ++ 1#1 ++ en ++ 0#1 ++ rs).getLsbD i = _
  simp only [BitVec.getLsbD_append]
  interval_cases i <;> simp

/-- Enable is a term of its own in the formula. -/
theorem busWord_enabled_eq_or : busWord n 1#1 rs = busWord n 0#1 rs ||| 0x04#8 := by
  calc busWord n 1#1 rs
    _ = (n.setWidth 8 <<< 4) ||| 0x08#8 ||| 0x04#8 ||| rs.setWidth 8 := busWord_eq_formula n 1#1 rs
    _ = (n.setWidth 8 <<< 4) ||| 0x08#8 ||| rs.setWidth 8 ||| 0x04#8 := by ac_rfl
    _ = busWord n 0#1 rs ||| 0x04#8 := by simp [busWord_eq_formula]

/-- No other term of the formula reaches bit 2. -/
theorem busWord_enabled_eq_xor : busWord n 1#1 rs = busWord n 0#1 rs ^^^ 0x04#8 := by
  simp only [busWord_eq_formula]
  ext i hi
  interval_cases i <;> simp

end BusWord

section ByteWords

variable (b : Byte) (rs : BitVec 1)

theorem busWord_hiNibble : busWord (hiNibble b) 0#1 rs = hi8 b (rs.setWidth 8) := by
  have hmask : (hiNibble b).setWidth 8 <<< 4 = b &&& 0xF0#8 := by
    ext i hi
    interval_cases i <;> simp [hiNibble]
  simp [busWord_eq_formula, hmask, hi8]

theorem busWord_loNibble : busWord (loNibble b) 0#1 rs = lo8 b (rs.setWidth 8) := by
  have hmask : (loNibble b).setWidth 8 = b &&& 0x0F#8 := by
    ext i hi
    interval_cases i <;> simp [loNibble]
  simp [busWord_eq_formula, hmask, lo8]

end ByteWords

/-! ### The nibble transfer (R79) -/

theorem delay_zero : delay 0#24 = [] := rfl

theorem delay_of_ne_zero {m : Count} (h : m ≠ 0#24) : delay m = [.dly m] := if_neg h

section Nib

variable (p : Params) (n : Nibble) (rs : BitVec 1)

/-- A nibble's words are the same with the settle delay and without. -/
@[simp] theorem busWords_nib :
    busWords (nib p n rs) = [busWord n 0#1 rs, busWord n 1#1 rs, busWord n 0#1 rs] := by
  simp [nib, busWords]

@[simp] theorem delayCycles_nib : delayCycles (nib p n rs) = p.tEn.toNat := by
  simp [nib, delayCycles]

theorem getLast?_nib : (nib p n rs).getLast? = some (.bw (busWord n 0#1 rs)) := by
  simp [nib, List.getLast?_cons]

end Nib

/-! ### The byte transfer (R80) -/

section ByteSeq

variable (p : Params) (b : Byte) (rs : BitVec 1)

/-- Three words for each nibble, each nibble's middle word the first with enable set. -/
theorem busWords_byteSeq : busWords (byteSeq p b rs) = sixWords b (rs.setWidth 8) := by
  simp [byteSeq, busWord_enabled_eq_or, busWord_hiNibble, busWord_loNibble, sixWords]

/-- One settle delay for each nibble. -/
theorem delayCycles_byteSeq : delayCycles (byteSeq p b rs) = 2 * p.tEn.toNat := by
  simp [byteSeq, two_mul]

/-- A byte ends as its low nibble does, with a bus word. -/
theorem getLast?_byteSeq : (byteSeq p b rs).getLast? = some (.bw (lo8 b (rs.setWidth 8))) := by
  simp [byteSeq, List.getLast?_append, getLast?_nib, busWord_loNibble]

end ByteSeq

/-! ### The obligations -/

/-- Settles O19: the list is `nib` with its delay present or left out, and the words are the formula's, with and without
bit 2. -/
theorem nibbleTransfer : Obligations.NibbleTransfer := by
  refine ⟨fun p n rs hEn => ?_, fun p n rs hEn => ?_, busWord_eq_formula, busWord_enabled_eq_xor, fun p => ?_⟩
  · simp [nib, delay_of_ne_zero hEn]
  · simp [nib, hEn, delay_zero]
  · rw [busWords_nib]
    decide

/-- Settles O20: `byteSeq` is its two nibbles, high first, and what they send, wait and end with. -/
theorem byteTransfer : Obligations.ByteTransfer :=
  fun p b rs => ⟨rfl, busWords_byteSeq p b rs, delayCycles_byteSeq p b rs, getLast?_byteSeq p b rs⟩

end Sys2Proof.Proofs
end

section
/-! The joystick sampler's pure functions (42_input.md R90, R91): the bands of the threshold classifier and the cases of
the axis action rule: the lemmas, then the obligations about them. -/

namespace Sys2Proof.Proofs

open Sys2Proof.Machine

/-! ### The threshold classifier (R90)

Where `cls` stops at one of its comparisons, the reading is in the band of that class and in no other. -/

section Bands

variable (v : Byte)

theorem cls_eq_neg_iff : cls v = .neg ↔ v.toNat ≤ 50 := by
  unfold cls thNeg
  split_ifs <;> simp <;> omega

theorem cls_eq_cen_iff : cls v = .cen ↔ 110 ≤ v.toNat ∧ v.toNat < 140 := by
  unfold cls thNeg thCLo thCHi
  split_ifs <;> simp <;> omega

theorem cls_eq_pos_iff : cls v = .pos ↔ 180 ≤ v.toNat := by
  unfold cls thNeg thCLo thCHi thPos
  split_ifs <;> simp <;> omega

theorem cls_eq_dead_iff :
    cls v = .dead ↔ (51 ≤ v.toNat ∧ v.toNat ≤ 109) ∨ (140 ≤ v.toNat ∧ v.toNat ≤ 179) := by
  unfold cls thNeg thCLo thCHi thPos
  split_ifs <;> simp <;> omega

end Bands

/-! ### The axis action rule (R91) -/

section AxisRule

variable {v : Byte} {l : LatchVal} {h : Count} {c : AxisClass} {d : Dir}

/-- The holdoff runs: whatever the reading, the axis is frozen. -/
theorem axisRule_of_holdoff (hh : h ≠ 0#24) : axisRule v l h = ⟨cls v, none, l, false⟩ := if_pos hh

/-- A direction that the latch does not remember fires. -/
theorem axisRule_of_dir_ne_latch (hh : h = 0#24) (hc : cls v = c) (hd : c.dir? = some d) (hl : l ≠ d.latch) :
    axisRule v l h = ⟨c, some d, d.latch, true⟩ := by
  simp [axisRule, hh, hc, hd, hl]

/-- A direction that the latch remembers does not fire again. -/
theorem axisRule_of_dir_eq_latch (hh : h = 0#24) (hc : cls v = c) (hd : c.dir? = some d) (hl : l = d.latch) :
    axisRule v l h = ⟨c, none, d.latch, false⟩ := by
  simp [axisRule, hh, hc, hd, hl]

theorem axisRule_of_cen (hh : h = 0#24) (hc : cls v = .cen) : axisRule v l h = ⟨.cen, none, .center, false⟩ := by
  simp [axisRule, hh, hc, AxisClass.dir?]

/-- A reading between the bands does without the holdoff what every reading does within it. -/
theorem axisRule_of_dead (hc : cls v = .dead) : axisRule v l h = ⟨.dead, none, l, false⟩ := by
  by_cases hh : h = 0#24
  · simp [axisRule, hh, hc, AxisClass.dir?]
  · rw [axisRule_of_holdoff hh, hc]

end AxisRule

/-! ### The obligations -/

/-- Settles O32: one band for each class, and the axis action rule on a reading between the bands. -/
theorem classifierBands : Obligations.ClassifierBands := by
  refine ⟨fun v => ⟨cls_eq_neg_iff v, cls_eq_cen_iff v, cls_eq_pos_iff v, cls_eq_dead_iff v⟩, fun v l h hdead => ?_⟩
  rw [axisRule_of_dead hdead]
  exact ⟨rfl, rfl⟩

/-- Settles O33: frozen, or, with no holdoff, by the reading's class: a direction (fired or already latched), the center
band, or between the bands. -/
theorem axisActionCases : Obligations.AxisActionCases := by
  intro v l h
  refine ⟨axisRule_of_holdoff, ?firesPos, ?firesNeg, axisRule_of_cen, ?latchedPos, ?latchedNeg,
    fun _ => axisRule_of_dead⟩
  case firesPos => exact fun hh hc hl => axisRule_of_dir_ne_latch (d := .pos) hh hc rfl hl
  case firesNeg => exact fun hh hc hl => axisRule_of_dir_ne_latch (d := .neg) hh hc rfl hl
  case latchedPos => exact fun hh hc hl => axisRule_of_dir_eq_latch (d := .pos) hh hc rfl hl
  case latchedNeg => exact fun hh hc hl => axisRule_of_dir_eq_latch (d := .neg) hh hc rfl hl

end Sys2Proof.Proofs
end

section
/-! The refusals of a CMD write (60_exceptions.md R102 to R105): which check of R105 is the first to fail, what a refused
and an accepted write do: the lemmas, then the obligations about them. -/

namespace Sys2Proof.Proofs

open Sys2Proof.Machine Sys2Proof.Laws

/-! ### The bytes of the command map (30_encoding.md R54, R55) -/

/-- Every row of the map compares the whole byte with its own command's encoding. -/
theorem opcodeTable_row : ∀ r ∈ opcodeTable, r.mask = 0xFF#8 ∧ r.pattern = encode r.instr := by decide

theorem encode_of_decode {c : Byte} {j : Instr} (h : decode c = .ok j) : encode j = c := by
  unfold decode at h
  split at h
  · next r hfind =>
    cases h
    obtain ⟨hmask, hpattern⟩ := opcodeTable_row r (List.mem_of_find?_eq_some hfind)
    have hmatch : c &&& r.mask = r.pattern := by simpa using List.find?_some hfind
    calc encode r.instr
      _ = c &&& 0xFF#8 := by rw [← hpattern, ← hmatch, hmask]
      _ = c := BitVec.and_allOnes
  · cases h

theorem decode_encode (j : Instr) : decode (encode j) = .ok j := by
  cases j <;> decide

theorem encode_mem_commandBytes (j : Instr) :
    encode j ∈ [0x01#8, 0x02#8, 0x03#8, 0x04#8, 0x05#8, 0x11#8, 0x12#8] := by
  cases j <;> decide

/-- A byte outside the map names no command: one that did would be its encoding. -/
theorem decode_outside_map {c : Byte} (hc : c ∉ [0x01#8, 0x02#8, 0x03#8, 0x04#8, 0x05#8, 0x11#8, 0x12#8]) :
    ∃ e, decode c = .error e := by
  cases hd : decode c with
  | error e => exact ⟨e, rfl⟩
  | ok j => exact absurd (encode_of_decode hd ▸ encode_mem_commandBytes j) hc

/-- CLEAR, WRCMD, WRDATA and PUTC: the commands of R104's first gate. -/
def NeedsInit (j : Instr) : Prop :=
  j = .clear ∨ j = .wrcmd ∨ j = .wrdata ∨ j = .putc

theorem decode_needsInit {c : Byte} (hc : c ∈ [0x02#8, 0x03#8, 0x04#8, 0x05#8]) :
    ∃ j, NeedsInit j ∧ decode c = .ok j := by
  simp only [List.mem_cons, List.not_mem_nil, or_false] at hc
  rcases hc with rfl | rfl | rfl | rfl
  · exact ⟨.clear, .inl rfl, by decide⟩
  · exact ⟨.wrcmd, .inr (.inl rfl), by decide⟩
  · exact ⟨.wrdata, .inr (.inr (.inl rfl)), by decide⟩
  · exact ⟨.putc, .inr (.inr (.inr rfl)), by decide⟩

/-! ### The gates (R104) -/

section Gates

variable {s : State} {j : Instr}

theorem gate_init_of_initDone (h : s.initDone = true) : gate s .init = some .eReinit := if_pos h

theorem gate_of_needsInit (hj : NeedsInit j) (h : s.initDone = false) : gate s j = some .eNotInit := by
  rcases hj with rfl | rfl | rfl | rfl <;> simp [gate, gateNotInit, h]

/-- The gates read INIT_DONE only: INIT asks for 0, the other display commands for 1, SAMPLE and LATCHCLR for nothing. -/
theorem gate_open (hinit : encode j = 0x01#8 → s.initDone = false)
    (hdisplay : encode j ∈ [0x02#8, 0x03#8, 0x04#8, 0x05#8] → s.initDone = true) : gate s j = none := by
  cases j with
  | init => simp [gate, gateReinit, hinit (by decide)]
  | clear | wrcmd | wrdata | putc => simp [gate, gateNotInit, hdisplay (by decide)]
  | sample | latchclr => rfl

theorem gate_withEnv (env : List Inputs) : gate (s.withEnv env) j = gate s j := by
  cases j <;> rfl

end Gates

/-! ### The first check that fails (R105) -/

/-- The error with which a CMD write of `c` is refused, if it is: the checks in R105's order. -/
def cmdRefusal (s : State) (c : Byte) : Option ErrCode :=
  if s.busy then some .eBusy
  else
    match decode c with
    | .ok j => gate s j
    | .error _ => some .eIllegalCmd

section Refusal

variable {s : State} {c : Byte} {j : Instr} {e : ErrCode}

theorem cmdRefusal_busy (hb : s.busy = true) : cmdRefusal s c = some .eBusy := if_pos hb

theorem cmdRefusal_illegal (hb : s.busy = false)
    (hc : c ∉ [0x01#8, 0x02#8, 0x03#8, 0x04#8, 0x05#8, 0x11#8, 0x12#8]) : cmdRefusal s c = some .eIllegalCmd := by
  obtain ⟨x, hd⟩ := decode_outside_map hc
  simp [cmdRefusal, hb, hd]

theorem cmdRefusal_command (hb : s.busy = false) (hd : decode c = .ok j) : cmdRefusal s c = gate s j := by
  simp [cmdRefusal, hb, hd]

/-- The refusal does not depend on the environment. -/
theorem cmdRefusal_withEnv (env : List Inputs) : cmdRefusal (s.withEnv env) c = cmdRefusal s c := by
  unfold cmdRefusal
  cases decode c with
  | error x => rfl
  | ok j => simp [gate_withEnv]

/-! ### The cycle of a CMD write -/

theorem exec_refused (hd : decode c = .ok j) (h : cmdRefusal s c = some e) :
    exec j s = .next (cycle s false (some e)) := by
  rw [exec_eq]
  rcases commandCycle_cases s (encode j) (gate s j) (prog s.par s.data j) with
    ⟨hb, hcyc⟩ | ⟨x, hb, hg, hcyc⟩ | ⟨hb, hg, _⟩
  · cases (cmdRefusal_busy hb).symm.trans h
    rw [hcyc]
  · cases hg.symm.trans ((cmdRefusal_command hb hd).symm.trans h)
    rw [hcyc]
  · cases hg.symm.trans ((cmdRefusal_command hb hd).symm.trans h)

theorem exec_accepted (hb : s.busy = false) (hg : gate s j = none) :
    exec j s = .next (accept s (encode j) (prog s.par s.data j) (cycle s false none)) := by
  rw [exec_eq, hg, commandCycle_accepted hb]

theorem illegalCycle_refused {x : DecodeError} (hd : decode c = .error x) (h : cmdRefusal s c = some e) :
    illegalCycle s c = cycle s false (some e) := by
  rw [illegalCycle]
  cases hb : s.busy with
  | true =>
    cases (cmdRefusal_busy hb).symm.trans h
    rw [commandCycle_busy hb]
  | false =>
    obtain rfl : ErrCode.eIllegalCmd = e := by simpa [cmdRefusal, hb, hd] using h
    rw [commandCycle_refused hb]

/-- Whichever check fails first, the cycle is the host-quiet one with that error raised. -/
theorem step_cmd_refused (hr : s.inputs.rst = false) (ha : hostAccess s.inputs = .write 0x0#4 c)
    (h : cmdRefusal s c = some e) : step s = .next (cycle s false (some e)) := by
  rcases step_cases s with ⟨hrst, _⟩ | ⟨c', j, _, ha', hd, hs⟩ | ⟨c', x, _, ha', hd, hs⟩ | ⟨_, hno, _⟩
  · rw [hr] at hrst; cases hrst
  · cases ha.symm.trans ha'
    rw [hs, exec_refused hd h]
  · cases ha.symm.trans ha'
    rw [hs, illegalCycle_refused hd h]
  · exact absurd ha (hno c)

end Refusal

/-! ### The write against the same cycle without it -/

section Placed

variable {s u : State} {i : Inputs} {rest : List Inputs} {c : Byte}

theorem step_placed_idle (hr : i.rst = false) :
    step (s.withEnv (withAccess i .idle :: rest)) = .next (cycle (s.withEnv (withAccess i .idle :: rest)) false none) :=
  step_placed hr (by simp)

/-- A refused write only raises its error, after what the cycle without it records. -/
theorem step_placed_refused {e : ErrCode} (hr : i.rst = false)
    (hu : step (s.withEnv (withAccess i .idle :: rest)) = .next u) (h : cmdRefusal s c = some e) :
    step (s.withEnv (withAccess i (.write 0x0#4 c) :: rest))
      = .next { u with errcode := if u.errcode = 0x00#8 then e.code else u.errcode } := by
  cases (step_placed_idle hr).symm.trans hu
  have hs := step_cmd_refused (s := s.withEnv (withAccess i (.write 0x0#4 c) :: rest)) (c := c) (e := e)
    (by simpa using hr) (by simp) (by rw [cmdRefusal_withEnv, h])
  rw [hs, cycle_access, cycle_refusal, raise_some]

/-- An accepted write only starts its command. -/
theorem step_placed_accepted {j : Instr} (hr : i.rst = false)
    (hu : step (s.withEnv (withAccess i .idle :: rest)) = .next u) (hb : s.busy = false) (hd : decode c = .ok j)
    (hg : gate s j = none) :
    step (s.withEnv (withAccess i (.write 0x0#4 c) :: rest))
      = .next { u with busy := true, cur := c, opr := s.data, seq := prog s.par s.data j, wcnt := 0#24 } := by
  cases (step_placed_idle hr).symm.trans hu
  have hs := exec_accepted (s := s.withEnv (withAccess i (.write 0x0#4 c) :: rest)) hb ((gate_withEnv _).trans hg)
  rw [step_placed_command hr hd, hs, cycle_access, encode_of_decode hd]
  rfl

/-- While idle, a cycle without a host access leaves ERRCODE. -/
theorem errcode_of_idle_cycle (hr : i.rst = false) (hb : s.busy = false)
    (hu : step (s.withEnv (withAccess i .idle :: rest)) = .next u) : u.errcode = s.errcode := by
  cases (step_placed_idle hr).symm.trans hu
  rw [cycle_idle_plain (s := s.withEnv (withAccess i .idle :: rest)) hb]
  rfl

end Placed

/-! ### No list is empty (40_sequencer.md R66) -/

theorem nib_ne_nil (p : Params) (n : Nibble) (rs : BitVec 1) : nib p n rs ≠ [] := by
  simp [nib]

theorem byteSeq_ne_nil (p : Params) (b : Byte) (rs : BitVec 1) : byteSeq p b rs ≠ [] :=
  List.append_ne_nil_of_left_ne_nil (nib_ne_nil p _ rs) _

theorem prog_ne_nil (p : Params) (d : Byte) (j : Instr) : prog p d j ≠ [] := by
  cases j with
  | init => exact List.append_ne_nil_of_right_ne_nil _ (List.cons_ne_nil _ _)
  | clear => exact List.append_ne_nil_of_left_ne_nil (byteSeq_ne_nil p _ _) _
  | wrcmd => exact byteSeq_ne_nil p d _
  | wrdata => exact byteSeq_ne_nil p d _
  | putc =>
    rw [prog, progPutc]
    split <;> exact byteSeq_ne_nil p _ _
  | sample => exact List.cons_ne_nil _ _
  | latchclr => exact List.cons_ne_nil _ _

/-! ### The obligations -/

/-- Settles O21: each clause names the first check that fails, and a write that passes them all is accepted. -/
theorem acceptanceCheckOrder : Obligations.AcceptanceCheckOrder := by
  refine ⟨fun s u i rest c hr hu => ?_, prog_ne_nil⟩
  have herr : s.busy = false → u.errcode = s.errcode := fun hb => errcode_of_idle_cycle hr hb hu
  refine ⟨fun hb => ?busy, fun hb hc => ?illegal, fun hb hc hi => ?reinit, fun hb hc hi => ?notInit,
    fun j hb hd hinit hdisplay => ?accepted⟩
  case busy => exact step_placed_refused hr hu (cmdRefusal_busy hb)
  case illegal =>
    rw [← herr hb]
    exact step_placed_refused hr hu (cmdRefusal_illegal hb hc)
  case reinit =>
    have hd : decode c = .ok .init := hc ▸ decode_encode .init
    rw [← herr hb]
    exact step_placed_refused hr hu ((cmdRefusal_command hb hd).trans (gate_init_of_initDone hi))
  case notInit =>
    obtain ⟨j, hj, hd⟩ := decode_needsInit hc
    rw [← herr hb]
    exact step_placed_refused hr hu ((cmdRefusal_command hb hd).trans (gate_of_needsInit hj hi))
  case accepted =>
    rw [← encode_of_decode hd] at hinit hdisplay
    exact step_placed_accepted hr hu hb hd (gate_open hinit hdisplay)

/-- Settles O25: BUSY is the first check, so neither the command nor the byte matters. -/
theorem commandWhileBusyRefused : Obligations.CommandWhileBusyRefused := by
  refine ⟨fun s j hb => ?_, fun s i rest c hr hb => ?_⟩
  · rw [exec_refused (decode_encode j) (cmdRefusal_busy hb), cycle_refusal, raise_some]
    rfl
  · exact ⟨_, step_placed_idle hr, step_placed_refused hr (step_placed_idle hr) (cmdRefusal_busy hb)⟩

/-- Settles O26: the gate answers, the idle cycle is the per-cycle updates, and no word is presented while BUSY = 0. -/
theorem initGateRefusals : Obligations.InitGateRefusals := by
  refine ⟨fun s j hj hb hi => ?_, fun s hb hi => ?_, fun s hb => ?_⟩
  · have href := (cmdRefusal_command hb (decode_encode j)).trans (gate_of_needsInit hj hi)
    rw [exec_refused (decode_encode j) href, cycle_idle hb]
    rfl
  · have href := (cmdRefusal_command hb (decode_encode .init)).trans (gate_init_of_initDone hi)
    rw [exec_refused (decode_encode .init) href, cycle_idle hb]
    rfl
  · simp [State.btReq, State.busWord?, hb]

/-- Settles O27: with BUSY = 0 a byte outside the map fails the next check. -/
theorem illegalCommandRaises : Obligations.IllegalCommandRaises := by
  intro s c hr ha hc hb
  rw [step_cmd_refused hr ha (cmdRefusal_illegal hb hc), cycle_idle hb]
  rfl

end Sys2Proof.Proofs
end

section
/-! What one cycle can do, once: the cases of a step with the whole next state in each, what they say about the elements
that only micro-ops write, and that every cycle and every run has a next state. Then the obligations about single cycles
and host accesses that follow from the cases alone. -/

namespace Sys2Proof.Proofs

open Sys2Proof.Machine Sys2Proof.Laws

/-! ### The cases of a step (40_sequencer.md R63, R66, R77) -/

/-- What the host's access leaves in DATA (`d`) and ERRCODE (`e`) after a cycle in which the sequencer raises `x`. -/
structure HostEffect (s : State) (x : Option ErrCode) (d e : Byte) : Prop where
  data : d = s.data ∨ hostAccess s.inputs = .write 0x1#4 d
  err : e = raise s.errcode x ∨ (∃ v, hostAccess s.inputs = .write 0x3#4 v ∧ e = raise 0x00#8 x) ∨
    ∃ c y, hostAccess s.inputs = .write 0x0#4 c ∧ e = raise (raise s.errcode x) (some y)

/-- The ways from `s` to `t` in one cycle: a reset edge, an accepted command, or the sequencer's cycle, idle or with one of
the outcomes of its micro-op; each with the whole of `t`. -/
inductive StepCase (s t : State) : Prop
  | reset (hrst : s.inputs.rst = true) (ht : t = resetCycle s)
  | accepts (c : Byte) (i : Instr) (hrst : s.inputs.rst = false) (hbusy : s.busy = false)
      (hcmd : hostAccess s.inputs = .write 0x0#4 c) (hdec : decode c = .ok i) (hgate : gate s i = none)
      (ht : t = accept s (encode i) (prog s.par s.data i) (perCycle s))
  | idles (d e : Byte) (hrst : s.inputs.rst = false) (hbusy : s.busy = false) (hhost : HostEffect s none d e)
      (ht : t = settled (perCycle s) d e)
  | ends (d e : Byte) (hrst : s.inputs.rst = false) (hbusy : s.busy = true) (hseq : s.seq = [])
      (hhost : HostEffect s none d e) (ht : t = settled (popSeq [] (perCycle s)) d e)
  | stays (u : MicroOp) (rest : List MicroOp) (d e : Byte) (hrst : s.inputs.rst = false) (hbusy : s.busy = true)
      (hseq : s.seq = u :: rest) (hverdict : uopVerdict s u = .stay) (hhost : HostEffect s none d e)
      (ht : t = settled { perCycle s with wcnt := satInc s.wcnt } d e)
  | pops (u : MicroOp) (rest : List MicroOp) (d e : Byte) (hrst : s.inputs.rst = false) (hbusy : s.busy = true)
      (hseq : s.seq = u :: rest) (hverdict : uopVerdict s u = .pop) (hhost : HostEffect s none d e)
      (ht : t = settled (popSeq rest (uopEffect s u (perCycle s))) d e)
  | aborts (u : MicroOp) (rest : List MicroOp) (x : ErrCode) (d e : Byte) (hrst : s.inputs.rst = false)
      (hbusy : s.busy = true) (hseq : s.seq = u :: rest) (hverdict : uopVerdict s u = .abort x)
      (hhost : HostEffect s (some x) d e) (ht : t = settled (abortSeq x (perCycle s)) d e)

/-- A settled cycle is the settled sequencer step: the cycle itself adds ERRCODE only. -/
theorem settled_cycle (s : State) (b : Bool) (r : Option ErrCode) (d e : Byte) :
    settled (cycle s b r) d e = settled (seqStep s (perCycle s)) d e := rfl

theorem stepCase_of_step {s t : State} (h : step s = .next t) : StepCase s t := by
  cases hr : s.inputs.rst with
  | true =>
    rw [step_reset hr] at h
    cases h
    exact .reset hr rfl
  | false =>
    rcases step_shape hr with ⟨d, e, hs, hdata, herr⟩ | ⟨c, i, hb, ha, hd, hg, hs⟩
    · rw [hs, settled_cycle] at h
      cases h
      have hhost : HostEffect s (seqRaise s) d e := ⟨hdata, herr⟩
      rcases seqStep_cases s (perCycle s) with ⟨hb, hq, hx⟩ | ⟨hb, hseq, hq, hx⟩ |
        ⟨u, rest, hb, hseq, ⟨hv, hq, hx⟩ | ⟨hv, hq, hx⟩ | ⟨x, hv, hq, hx⟩⟩ <;> rw [hx] at hhost <;> rw [hq]
      · exact .idles d e hr hb hhost rfl
      · exact .ends d e hr hb hseq hhost rfl
      · exact .stays u rest d e hr hb hseq hv hhost rfl
      · exact .pops u rest d e hr hb hseq hv hhost rfl
      · exact .aborts u rest x d e hr hb hseq hv hhost rfl
    · rw [hs] at h
      cases h
      exact .accepts c i hr hb ha hd hg rfl

/-- In every cycle without reset DATA and ERRCODE are what the host and the sequencer's error leave. -/
theorem step_hostEffect {s t : State} (hr : s.inputs.rst = false) (h : step s = .next t) :
    HostEffect s (seqRaise s) t.data t.errcode := by
  rcases step_shape hr with ⟨d, e, hs, hdata, herr⟩ | ⟨c, i, hb, _, _, _, hs⟩
  · cases hs.symm.trans h
    exact ⟨hdata, herr⟩
  · cases hs.symm.trans h
    rw [seqRaise_idle hb]
    exact ⟨.inl rfl, .inl rfl⟩

/-! ### Every cycle and every run has a next state -/

theorem step_total (s : State) : ∃ t, step s = .next t := by
  cases hr : s.inputs.rst with
  | true => exact ⟨_, step_reset hr⟩
  | false =>
    rcases step_shape hr with ⟨_, _, hs, _⟩ | ⟨_, _, _, _, _, _, hs⟩
    · exact ⟨_, hs⟩
    · exact ⟨_, hs⟩

theorem run_total (k : Nat) (s : State) : ∃ t, run k s = .next t := by
  induction k generalizing s with
  | zero => exact ⟨s, rfl⟩
  | succ k ih =>
    obtain ⟨u, hu⟩ := step_total s
    rw [run_succ hu]
    exact ih u

/-- A property that every cycle with `p` keeps holds after a run of such cycles. -/
theorem run_keeps {P : State → Prop} {p : State → Bool}
    (hstep : ∀ {s t}, P s → p s = true → step s = .next t → P t) {k : Nat} {s t : State} (hs : P s)
    (hd : during k p s = true) (h : run k s = .next t) : P t := by
  induction k generalizing s with
  | zero => cases h; exact hs
  | succ k ih =>
    obtain ⟨u, hu⟩ := step_total s
    rw [run_succ hu] at h
    rw [during_succ hu, Bool.and_eq_true] at hd
    exact ih (hstep hs hd.1 hu) hd.2 h

/-- What holds in the cycles of a run with `p` holds with a weaker `q`. -/
theorem during_mono {p q : State → Bool} (hpq : ∀ s, p s = true → q s = true) {k : Nat} {s : State}
    (h : during k p s = true) : during k q s = true := by
  induction k generalizing s with
  | zero => rfl
  | succ k ih =>
    obtain ⟨u, hu⟩ := step_total s
    rw [during_succ hu, Bool.and_eq_true] at h ⊢
    exact ⟨hpq s h.1, ih h.2⟩

theorem during_le {m k : Nat} (hk : k ≤ m) {p : State → Bool} {s : State} (h : during m p s = true) :
    during k p s = true := by
  induction k generalizing m s with
  | zero => rfl
  | succ k ih =>
    obtain ⟨m, rfl⟩ := Nat.exists_eq_succ_of_ne_zero (Nat.ne_zero_of_lt hk)
    obtain ⟨u, hu⟩ := step_total s
    rw [during_succ hu, Bool.and_eq_true] at h ⊢
    exact ⟨h.1, ih (Nat.le_of_succ_le_succ hk) h.2⟩

/-! ### The elements that only micro-ops write

Every element but DATA, ERRCODE and those of the command in progress. -/

/-- `a` with DATA, ERRCODE and the elements of the command in progress as in `b`. -/
def withControl (a b : State) : State :=
  { a with
    data := b.data, errcode := b.errcode, busy := b.busy, initDone := b.initDone, cur := b.cur, opr := b.opr,
    seq := b.seq, wcnt := b.wcnt }

/-- A cycle without reset makes the per-cycle updates and, where it pops a micro-op, that micro-op's writes. -/
theorem step_withControl {s t : State} (hr : s.inputs.rst = false) (h : step s = .next t) :
    (∃ u, s.performs u = true ∧ uopVerdict s u = .pop ∧ t = withControl (uopEffect s u (perCycle s)) t) ∨
      ((∀ u, s.performs u = true → uopVerdict s u ≠ .pop) ∧ t = withControl (perCycle s) t) := by
  have hidle : s.busy = false → ∀ u, s.performs u = true → uopVerdict s u ≠ .pop := by
    intro hb u hu
    obtain ⟨_, hbusy, _⟩ := (performs_iff s u).mp hu
    rw [hb] at hbusy
    cases hbusy
  have hhead : ∀ {q}, s.seq = q → (∀ u rest, q = u :: rest → uopVerdict s u ≠ .pop) →
      ∀ u, s.performs u = true → uopVerdict s u ≠ .pop := by
    intro q hq hv u hu
    obtain ⟨_, _, rest, hs⟩ := (performs_iff s u).mp hu
    exact hv u rest (hq.symm.trans hs)
  cases stepCase_of_step h with
  | reset hrst => rw [hr] at hrst; cases hrst
  | accepts c i _ hb _ _ _ ht => exact .inr ⟨hidle hb, by subst ht; rfl⟩
  | idles d e _ hb _ ht => exact .inr ⟨hidle hb, by subst ht; rfl⟩
  | ends d e _ _ hseq _ ht => exact .inr ⟨hhead hseq (by intro u rest hq; cases hq), by subst ht; rfl⟩
  | stays u rest d e _ _ hseq hv _ ht =>
    exact .inr ⟨hhead hseq (by intro u rest hq; cases hq; rw [hv]; decide), by subst ht; rfl⟩
  | pops u rest d e hrst hb hseq hv _ ht =>
    exact .inl ⟨u, (performs_iff s u).mpr ⟨hrst, hb, rest, hseq⟩, hv, by subst ht; rfl⟩
  | aborts u rest x d e _ _ hseq hv _ ht =>
    exact .inr ⟨hhead hseq (by intro u rest hq; cases hq; rw [hv]; intro hx; cases hx), by subst ht; rfl⟩

/-- A micro-op that ends at every edge writes what it writes. -/
theorem step_performs {s t : State} {u : MicroOp} (hp : s.performs u = true) (hv : uopVerdict s u = .pop)
    (h : step s = .next t) : t = withControl (uopEffect s u (perCycle s)) t := by
  obtain ⟨hr, _, rest, hseq⟩ := (performs_iff s u).mp hp
  rcases step_withControl hr h with ⟨u', hp', _, ht⟩ | ⟨hno, _⟩
  · obtain ⟨_, _, rest', hseq'⟩ := (performs_iff s u').mp hp'
    cases hseq.symm.trans hseq'
    exact ht
  · exact absurd hv (hno u hp)

/-- An element that neither the per-cycle updates nor any micro-op performed in the cycle writes stays. -/
theorem step_keeps {α : Type} (f : State → α) (hcontrol : ∀ a b, f (withControl a b) = f a)
    {s t : State} (hr : s.inputs.rst = false) (h : step s = .next t) (hcycle : f (perCycle s) = f s)
    (huop : ∀ u, s.performs u = true → f (uopEffect s u (perCycle s)) = f (perCycle s)) : f t = f s := by
  rcases step_withControl hr h with ⟨u, hp, _, ht⟩ | ⟨_, ht⟩
  · rw [ht, hcontrol, huop u hp, hcycle]
  · rw [ht, hcontrol, hcycle]

/-- The parameters stay in every cycle, a reset edge included. -/
theorem step_par {s t : State} (h : step s = .next t) : t.par = s.par := by
  cases hr : s.inputs.rst with
  | true => rw [step_reset hr] at h; cases h; rfl
  | false => exact step_keeps State.par (fun _ _ => rfl) hr h rfl (fun u _ => by simp)

theorem run_par {k : Nat} {s t : State} (h : run k s = .next t) : t.par = s.par := by
  induction k generalizing s with
  | zero => cases h; rfl
  | succ k ih =>
    obtain ⟨u, hu⟩ := step_total s
    rw [run_succ hu] at h
    exact (ih h).trans (step_par hu)

end Sys2Proof.Proofs
end

section
/-! The requests on the ports (40_sequencer.md R65) and the outcomes of the micro-op in progress (R69 to R73): when it
waits, ends or aborts, and what `noAbort` says of it. Then the obligations about single micro-op cycles. -/

namespace Sys2Proof.Proofs

open Sys2Proof.Machine Sys2Proof.Laws

/-! ### Requests (R65) -/

section Requests

variable {s : State}

theorem busWord?_eq_some_iff {w : Byte} :
    s.busWord? = some w ↔ s.busy = true ∧ ∃ rest, s.seq = .bw w :: rest := by
  unfold State.busWord?
  split
  · next hb =>
    split
    · next w' rest hs => simp [hb, hs]
    · next hno =>
      simp only [reduceCtorEq, hb, true_and, false_iff, not_exists]
      exact fun rest hs => hno w rest hs
  · next hb => simp [hb]

theorem adcAxis?_eq_some_iff {ch : Axis} :
    s.adcAxis? = some ch ↔ s.busy = true ∧ ∃ rest, s.seq = .adc ch :: rest := by
  unfold State.adcAxis?
  split
  · next hb =>
    split
    · next ch' rest hs => simp [hb, hs]
    · next hno =>
      simp only [reduceCtorEq, hb, true_and, false_iff, not_exists]
      exact fun rest hs => hno ch rest hs
  · next hb => simp [hb]

theorem btReq_iff : s.btReq = true ↔ s.busy = true ∧ ∃ w rest, s.seq = .bw w :: rest := by
  simp only [State.btReq, Option.isSome_iff_exists, busWord?_eq_some_iff, exists_and_left]

theorem adcReq_iff : s.adcReq = true ↔ s.busy = true ∧ ∃ ch rest, s.seq = .adc ch :: rest := by
  simp only [State.adcReq, Option.isSome_iff_exists, adcAxis?_eq_some_iff, exists_and_left]

theorem busWord?_of_head {u : MicroOp} {rest : List MicroOp} (hseq : s.seq = u :: rest) (hu : ∀ w, u ≠ .bw w) :
    s.busWord? = none := by
  rw [Option.eq_none_iff_forall_ne_some]
  intro w hw
  obtain ⟨_, rest', hseq'⟩ := busWord?_eq_some_iff.mp hw
  cases hseq.symm.trans hseq'
  exact hu w rfl

theorem adcAxis?_of_head {u : MicroOp} {rest : List MicroOp} (hseq : s.seq = u :: rest) (hu : ∀ ch, u ≠ .adc ch) :
    s.adcAxis? = none := by
  rw [Option.eq_none_iff_forall_ne_some]
  intro ch hch
  obtain ⟨_, rest', hseq'⟩ := adcAxis?_eq_some_iff.mp hch
  cases hseq.symm.trans hseq'
  exact hu ch rfl

end Requests

/-! ### The micro-op in progress (R69 to R73) -/

/-- The error that the micro-op's wait can end with in this cycle: it waits for a response and gets none. -/
def unanswered (s : State) : MicroOp → Option ErrCode
  | .bw _ => if s.inputs.btDone then none else some .eBusTimeout
  | .adc _ => if s.inputs.adcDone then none else some .eAdcTimeout
  | _ => none

section Verdict

variable {s : State} {u : MicroOp} {e : ErrCode}

theorem unanswered_bw_iff {w : Byte} : unanswered s (.bw w) = some e ↔ s.inputs.btDone = false ∧ e = .eBusTimeout := by
  cases hd : s.inputs.btDone <;> simp [unanswered, hd, eq_comm]

theorem unanswered_adc_iff {ch : Axis} : unanswered s (.adc ch) = some e ↔ s.inputs.adcDone = false ∧ e = .eAdcTimeout := by
  cases hd : s.inputs.adcDone <;> simp [unanswered, hd, eq_comm]

@[simp] theorem waitVerdict_eq_stay_iff : waitVerdict s e = .stay ↔ ¬ s.waitExpires := by
  unfold waitVerdict
  split <;> next h => simpa [State.waitExpires] using h

@[simp] theorem waitVerdict_eq_abort_iff {x : ErrCode} : waitVerdict s e = .abort x ↔ s.waitExpires ∧ e = x := by
  unfold waitVerdict
  split <;> next h => simp [State.waitExpires, h]

@[simp] theorem waitVerdict_ne_pop : waitVerdict s e ≠ .pop := by
  unfold waitVerdict
  split <;> simp

/-- A micro-op stays only in an unanswered wait within its bound, or in a delay that is not over. -/
theorem uopVerdict_eq_stay_iff :
    uopVerdict s u = .stay ↔
      ((∃ e, unanswered s u = some e) ∧ ¬ s.waitExpires) ∨ ∃ n, u = .dly n ∧ s.wcnt.toNat + 1 ≠ n.toNat := by
  cases u with
  | bw w =>
    simp only [uopVerdict, unanswered]
    split_ifs <;> simp
  | adc ch =>
    simp only [uopVerdict, unanswered]
    split_ifs <;> simp
  | dly n => simp [uopVerdict, unanswered]
  | btncap | commit | lclr | setinit => simp [uopVerdict, unanswered]

/-- A micro-op aborts only as a refused bus word or in an unanswered wait at its bound. -/
theorem uopVerdict_eq_abort_iff :
    uopVerdict s u = .abort e ↔
      (∃ w, u = .bw w ∧ s.inputs.btDone = true ∧ s.inputs.btOk = false ∧ e = .eBusNack) ∨
        (unanswered s u = some e ∧ s.waitExpires) := by
  cases u with
  | bw w =>
    simp only [uopVerdict, unanswered]
    split_ifs with hd hk
    · simp [hk]
    · simp [hd, hk, eq_comm]
    · simp [hd, and_comm]
  | adc ch =>
    simp only [uopVerdict, unanswered]
    split_ifs <;> simp [and_comm]
  | dly n =>
    simp only [uopVerdict, unanswered]
    split_ifs <;> simp
  | btncap | commit | lclr | setinit => simp [uopVerdict, unanswered]

/-- A micro-op ends well when its response has come, when its delay is over, or at once. -/
theorem uopVerdict_eq_pop_iff :
    uopVerdict s u = .pop ↔
      match u with
      | .bw _ => s.inputs.btDone = true ∧ s.inputs.btOk = true
      | .adc _ => s.inputs.adcDone = true
      | .dly n => s.wcnt.toNat + 1 = n.toNat
      | _ => True := by
  cases u with
  | bw w =>
    simp only [uopVerdict]
    split_ifs with hd hk <;> simp [*]
  | adc ch =>
    simp only [uopVerdict]
    split_ifs with hd <;> simp [hd]
  | dly n =>
    simp only [uopVerdict]
    split_ifs with hn <;> simp [hn]
  | btncap | commit | lclr | setinit => simp [uopVerdict]

theorem not_waitExpires_iff :
    ¬ s.waitExpires ↔ s.par.waitTimeout = 0#24 ∨ s.wcnt.toNat + 1 < s.par.waitTimeout.toNat := by
  simp only [State.waitExpires, ge_iff_le, not_and, not_le, ← or_iff_not_imp_left, ne_eq]

theorem bw_aborts_never_iff {w : Byte} :
    (∀ e, uopVerdict s (.bw w) ≠ .abort e) ↔
      if s.inputs.btDone then s.inputs.btOk = true else ¬ s.waitExpires := by
  cases hd : s.inputs.btDone <;> simp [uopVerdict_eq_abort_iff, unanswered, hd]

theorem adc_aborts_never_iff {ch : Axis} :
    (∀ e, uopVerdict s (.adc ch) ≠ .abort e) ↔ s.inputs.adcDone = true ∨ ¬ s.waitExpires := by
  cases hd : s.inputs.adcDone <;> simp [uopVerdict_eq_abort_iff, unanswered, hd]

theorem seqRaise_eq_none_iff {rest : List MicroOp} (hb : s.busy = true) (hseq : s.seq = u :: rest) :
    seqRaise s = none ↔ ∀ e, uopVerdict s u ≠ .abort e := by
  cases hv : uopVerdict s u <;> simp [seqRaise, hb, hseq, hv]

/-- `noAbort` says what it is named for: no reset edge, and the sequencer raises no error. -/
theorem noAbort_iff : s.noAbort = true ↔ s.inputs.rst = false ∧ seqRaise s = none := by
  have hbound : (s.par.waitTimeout == 0#24 || decide (s.wcnt.toNat + 1 < s.par.waitTimeout.toNat)) = true
      ↔ ¬ s.waitExpires := by
    simp [not_waitExpires_iff]
  cases hb : s.busy with
  | false =>
    simp [State.noAbort, State.btReq, State.busWord?, State.adcReq, State.adcAxis?, seqRaise, hb]
  | true =>
    cases hs : s.seq with
    | nil => simp [State.noAbort, State.btReq, State.busWord?, State.adcReq, State.adcAxis?, seqRaise, hs]
    | cons u rest =>
      rw [seqRaise_eq_none_iff hb hs]
      cases u with
      | bw w =>
        have hreq : s.btReq = true := btReq_iff.mpr ⟨hb, w, rest, hs⟩
        have hno : s.adcReq = false := by simp [State.adcReq, adcAxis?_of_head hs]
        rw [bw_aborts_never_iff, ← hbound]
        cases hd : s.inputs.btDone <;> simp [State.noAbort, hreq, hno, hd]
      | adc ch =>
        have hreq : s.adcReq = true := adcReq_iff.mpr ⟨hb, ch, rest, hs⟩
        have hno : s.btReq = false := by simp [State.btReq, busWord?_of_head hs]
        rw [adc_aborts_never_iff, ← hbound]
        simp [State.noAbort, hreq, hno, or_assoc]
      | dly _ | btncap | commit | lclr | setinit =>
        have hbt : s.btReq = false := by simp [State.btReq, busWord?_of_head hs]
        have hadc : s.adcReq = false := by simp [State.adcReq, adcAxis?_of_head hs]
        simp [State.noAbort, hbt, hadc, uopVerdict_eq_abort_iff, unanswered]

end Verdict
end Sys2Proof.Proofs
end

section
/-! What only particular micro-ops write (10_state.md R21 to R24, R27, R29, R32, R33), and an axis of the sampler in one
cycle (42_input.md R91, R97, R98), once for both axes. Then the obligations about single cycles of the input units. -/

namespace Sys2Proof.Proofs

open Sys2Proof.Machine Sys2Proof.Laws

/-! ### Which micro-op writes what -/

section Writers

variable {s t : State}

/-- The elements that a SAMPLE commits, but for the latches and the holdoff counters. -/
def committed (s : State) :=
  (s.xraw, s.yraw, s.xcls, s.ycls, s.evXPos, s.evXNeg, s.evYPos, s.evYNeg, s.evBPress, s.bprev, s.valid)

theorem ne_of_performs {u v : MicroOp} (hu : s.performs u = true) (hv : s.performs v = false) : u ≠ v := by
  rintro rfl
  rw [hu] at hv
  cases hv

theorem step_keeps_committed (hr : s.inputs.rst = false) (hc : s.performs .commit = false) (h : step s = .next t) :
    committed t = committed s := by
  refine step_keeps committed (fun _ _ => rfl) hr h rfl fun u hu => ?_
  have hne := ne_of_performs hu hc
  cases u with
  | commit => exact absurd rfl hne
  | adc ch => cases ch <;> rfl
  | bw _ | dly _ | btncap | lclr | setinit => rfl

theorem step_keeps_latches (hr : s.inputs.rst = false) (hc : s.performs .commit = false)
    (hl : s.performs .lclr = false) (h : step s = .next t) : (t.lx, t.ly) = (s.lx, s.ly) := by
  refine step_keeps (fun v => (v.lx, v.ly)) (fun _ _ => rfl) hr h rfl fun u hu => ?_
  have hnec := ne_of_performs hu hc
  have hnel := ne_of_performs hu hl
  cases u with
  | commit => exact absurd rfl hnec
  | lclr => exact absurd rfl hnel
  | adc ch => cases ch <;> rfl
  | bw _ | dly _ | btncap | setinit => rfl

theorem step_keeps_xs (hr : s.inputs.rst = false) (hc : s.performs (.adc .x) = false) (h : step s = .next t) :
    t.xs = s.xs := by
  refine step_keeps State.xs (fun _ _ => rfl) hr h rfl fun u hu => ?_
  have hne := ne_of_performs hu hc
  rcases u with _ | _ | ⟨_ | _⟩ | _ | _ | _ | _
  case adc.x => exact absurd rfl hne
  all_goals rfl

theorem step_keeps_ys (hr : s.inputs.rst = false) (hc : s.performs (.adc .y) = false) (h : step s = .next t) :
    t.ys = s.ys := by
  refine step_keeps State.ys (fun _ _ => rfl) hr h rfl fun u hu => ?_
  have hne := ne_of_performs hu hc
  rcases u with _ | _ | ⟨_ | _⟩ | _ | _ | _ | _
  case adc.y => exact absurd rfl hne
  all_goals rfl

theorem step_keeps_bs (hr : s.inputs.rst = false) (hc : s.performs .btncap = false) (h : step s = .next t) :
    t.bs = s.bs := by
  refine step_keeps State.bs (fun _ _ => rfl) hr h rfl fun u hu => ?_
  have hne := ne_of_performs hu hc
  rcases u with _ | _ | ⟨_ | _⟩ | _ | _ | _ | _
  case btncap => exact absurd rfl hne
  all_goals rfl

theorem step_commit (hc : s.performs .commit = true) (h : step s = .next t) :
    t = withControl (commitSample s (perCycle s)) t :=
  step_performs hc rfl h

end Writers

/-! ### One axis in one cycle -/

/-- What the sampler holds for one axis: the captured reading, the latch, the holdoff counter, the two events. -/
structure AxisUnit where
  reading : Byte
  latch : LatchVal
  hold : Count
  evPos : Bool
  evNeg : Bool

def axisUnit (s : State) : Axis → AxisUnit
  | .x => ⟨s.xs, s.lx, s.hx, s.evXPos, s.evXNeg⟩
  | .y => ⟨s.ys, s.ly, s.hy, s.evYPos, s.evYNeg⟩

/-- The axis action rule on what the axis holds: what a commit in this cycle writes. -/
def axisAction (s : State) (a : Axis) : AxisResult :=
  axisRule (axisUnit s a).reading (axisUnit s a).latch (axisUnit s a).hold

/-- The coming cycle's commit reports an event of the axis: `State.firesX` and `State.firesY`. -/
def fires (s : State) (a : Axis) : Bool :=
  s.performs .commit && (axisAction s a).fired.isSome

section AxisCycle

variable {s t : State} (a : Axis)

theorem step_commit_axis (hc : s.performs .commit = true) (h : step s = .next t) :
    (axisUnit t a).latch = (axisAction s a).latch ∧
      (axisUnit t a).evPos = ((axisAction s a).fired == some .pos) ∧
      (axisUnit t a).evNeg = ((axisAction s a).fired == some .neg) := by
  have ht := step_commit hc h
  cases a <;> rw [ht] <;> exact ⟨rfl, rfl, rfl⟩

theorem step_keeps_events (hr : s.inputs.rst = false) (hc : s.performs .commit = false) (h : step s = .next t) :
    (axisUnit t a).evPos = (axisUnit s a).evPos ∧ (axisUnit t a).evNeg = (axisUnit s a).evNeg := by
  have hk := step_keeps_committed hr hc h
  simp only [committed, Prod.mk.injEq] at hk
  obtain ⟨_, _, _, _, hxp, hxn, hyp, hyn, _⟩ := hk
  cases a
  · exact ⟨hxp, hxn⟩
  · exact ⟨hyp, hyn⟩

theorem step_keeps_latch (hr : s.inputs.rst = false) (hc : s.performs .commit = false)
    (hl : s.performs .lclr = false) (h : step s = .next t) : (axisUnit t a).latch = (axisUnit s a).latch := by
  obtain ⟨hx, hy⟩ := Prod.mk.inj (step_keeps_latches hr hc hl h)
  cases a
  · exact hx
  · exact hy

/-- The holdoff counter of an axis (R64, R93): loaded by an event, else counting down to 0. -/
theorem step_hold_axis (hr : s.inputs.rst = false) (h : step s = .next t) :
    (axisUnit t a).hold = if fires s a then s.par.axisHoldoff else dec (axisUnit s a).hold := by
  obtain ⟨_, _, hx, hy, _⟩ := perCycleUpdates s t hr h
  cases a
  · exact hx
  · exact hy

theorem step_hold_button (hr : s.inputs.rst = false) (h : step s = .next t) :
    t.hb = if s.firesB then s.par.btnHoldoff else dec s.hb := by
  obtain ⟨_, _, _, _, hb⟩ := perCycleUpdates s t hr h
  exact hb

end AxisCycle

section AxisRuleFacts

variable {v : Byte} {l : LatchVal} {h : Count} {d : Dir}

/-- An event asks for an expired holdoff and a latch that does not hold its direction, and leaves the latch holding it. -/
theorem axisRule_fired (hf : (axisRule v l h).fired = some d) :
    h = 0#24 ∧ (cls v).dir? = some d ∧ l ≠ d.latch ∧ (axisRule v l h).latch = d.latch := by
  by_cases hh : h = 0#24
  · cases hd : (cls v).dir? with
    | none =>
      simp only [axisRule, hh, hd] at hf
      split_ifs at hf
    | some d' =>
      by_cases hl : l = d'.latch
      · rw [axisRule_of_dir_eq_latch hh rfl hd hl] at hf
        cases hf
      · rw [axisRule_of_dir_ne_latch hh rfl hd hl] at hf ⊢
        cases hf
        exact ⟨hh, rfl, hl, rfl⟩
  · rw [axisRule_of_holdoff hh] at hf
    cases hf

/-- A reading in the latch's direction, or between the bands, fires nothing and leaves the latch. -/
theorem axisRule_of_held (hv : cls v = .dead ∨ (cls v).dir? = some d) (hl : l = d.latch) :
    (axisRule v l h).fired = none ∧ (axisRule v l h).latch = l := by
  rcases hv with hv | hv
  · rw [axisRule_of_dead hv]
    exact ⟨rfl, rfl⟩
  · by_cases hh : h = 0#24
    · rw [axisRule_of_dir_eq_latch hh rfl hv hl]
      exact ⟨rfl, hl.symm⟩
    · rw [axisRule_of_holdoff hh]
      exact ⟨rfl, rfl⟩

end AxisRuleFacts

end Sys2Proof.Proofs
end

section
/-! The invariant of reachable states (10_state.md R20, R24, R31; 40_sequencer.md R69, R71, R76; 42_input.md R100;
60_exceptions.md R104): its part about the command in progress and its part about the other elements, each kept by every
case of a step. Then the obligations: after reset, in every cycle, and what it says about the transport port. -/

namespace Sys2Proof.Proofs

open Sys2Proof.Machine Sys2Proof.Laws

/-! ### What the lists of R67 hold -/

section Lists

variable (p : Params)

theorem busWord_bits (n : Nibble) (en rs : BitVec 1) :
    (busWord n en rs).extractLsb' 4 4 = n ∧ (busWord n en rs).getLsbD 3 = true ∧
      (busWord n en rs).getLsbD 2 = en.getLsbD 0 ∧ (busWord n en rs).getLsbD 1 = false ∧
      (busWord n en rs).getLsbD 0 = rs.getLsbD 0 := by
  rw [busWord_eq_formula]
  refine ⟨?_, by simp, by simp, by simp, by simp⟩
  ext i hi
  interval_cases i <;> simp

/-- The micro-ops of a display transfer: bus words in format BW8 and delays. -/
def IsTransfer (u : MicroOp) : Prop :=
  (∃ n en rs, u = .bw (busWord n en rs)) ∨ ∃ m, u = .dly m

theorem isTransfer_of_mem_delay {m : Count} : ∀ u ∈ delay m, IsTransfer u := by
  intro u hu
  unfold delay at hu
  split at hu
  · cases hu
  · exact .inr ⟨m, List.mem_singleton.mp hu⟩

theorem isTransfer_of_mem_nib {n : Nibble} {rs : BitVec 1} : ∀ u ∈ nib p n rs, IsTransfer u := by
  intro u hu
  simp only [nib, List.mem_append, List.mem_cons, List.not_mem_nil, or_false] at hu
  rcases hu with ((rfl | rfl) | hu) | rfl
  case inl.inr => exact isTransfer_of_mem_delay u hu
  all_goals exact .inl ⟨_, _, _, rfl⟩

theorem isTransfer_of_mem_byteSeq {b : Byte} {rs : BitVec 1} : ∀ u ∈ byteSeq p b rs, IsTransfer u :=
  List.forall_mem_append.mpr ⟨isTransfer_of_mem_nib p, isTransfer_of_mem_nib p⟩

/-- INIT's list is transfers, and SETINIT after them. -/
theorem progInit_eq : ∃ l, progInit p = l ++ [.setinit] ∧ ∀ u ∈ l, IsTransfer u := by
  refine ⟨_, rfl, ?_⟩
  simp only [List.forall_mem_append]
  simp only [and_assoc]
  refine ⟨isTransfer_of_mem_delay, isTransfer_of_mem_nib p, isTransfer_of_mem_delay, isTransfer_of_mem_nib p,
    isTransfer_of_mem_delay, isTransfer_of_mem_nib p, isTransfer_of_mem_delay, isTransfer_of_mem_nib p,
    isTransfer_of_mem_byteSeq p, isTransfer_of_mem_byteSeq p, isTransfer_of_mem_byteSeq p, isTransfer_of_mem_byteSeq p,
    isTransfer_of_mem_delay⟩

/-- The lists of the other display commands are transfers only. -/
theorem isTransfer_of_needsInit {d : Byte} {i : Instr} (hi : NeedsInit i) : ∀ u ∈ prog p d i, IsTransfer u := by
  rcases hi with rfl | rfl | rfl | rfl
  · exact List.forall_mem_append.mpr ⟨isTransfer_of_mem_byteSeq p, isTransfer_of_mem_delay⟩
  · exact isTransfer_of_mem_byteSeq p
  · exact isTransfer_of_mem_byteSeq p
  · rw [prog, progPutc]
    split <;> exact isTransfer_of_mem_byteSeq p

theorem init_or_needsInit_or_input (i : Instr) : i = .init ∨ NeedsInit i ∨ i = .sample ∨ i = .latchclr := by
  cases i <;> simp [NeedsInit]

/-- A bus word in a list is in format BW8, and the list is a display command's. -/
theorem bw_mem_prog {w d : Byte} {i : Instr} (h : .bw w ∈ prog p d i) :
    (∃ n en rs, w = busWord n en rs) ∧ (i = .init ∨ NeedsInit i) := by
  have hword : IsTransfer (.bw w) → ∃ n en rs, w = busWord n en rs := by
    rintro (⟨n, en, rs, hw⟩ | ⟨m, hm⟩)
    · cases hw; exact ⟨n, en, rs, rfl⟩
    · cases hm
  rcases init_or_needsInit_or_input i with rfl | hi | rfl | rfl
  · obtain ⟨l, hl, hall⟩ := progInit_eq p
    rw [prog, hl] at h
    have hmem : MicroOp.bw w ∈ l := by simpa using h
    exact ⟨hword (hall _ hmem), .inl rfl⟩
  · exact ⟨hword (isTransfer_of_needsInit p hi _ h), .inr hi⟩
  · simp [prog, progSample] at h
  · simp [prog, progLatchclr] at h

/-- SETINIT is the last micro-op of its list. -/
theorem setinit_suffix_prog {d : Byte} {i : Instr} {rest : List MicroOp} (h : .setinit :: rest <:+ prog p d i) :
    rest = [] := by
  have hno : ¬ IsTransfer .setinit := by simp [IsTransfer]
  rcases init_or_needsInit_or_input i with rfl | hi | rfl | rfl
  · obtain ⟨l, hl, hall⟩ := progInit_eq p
    rw [prog, hl, List.suffix_concat_iff] at h
    rcases h with h | ⟨m, hm, hsuf⟩
    · cases h
    · cases m with
      | nil => simpa using hm
      | cons u m =>
        obtain ⟨rfl, _⟩ := List.cons.inj hm
        exact absurd (hall _ (hsuf.subset List.mem_cons_self)) hno
  · exact absurd (isTransfer_of_needsInit p hi _ (h.subset List.mem_cons_self)) hno
  · have hmem := h.subset List.mem_cons_self
    simp [prog, progSample] at hmem
  · have hmem := h.subset List.mem_cons_self
    simp [prog, progLatchclr] at hmem

end Lists

/-! ### The invariant's part about the command in progress -/

/-- The command in progress: the invariant but for ERRCODE, the events and the holdoff counters. -/
structure SeqInv (s : State) : Prop where
  busy_iff : s.busy = true ↔ s.seq ≠ []
  program : s.busy = true → s.seqFromProgram
  initGate : s.busy = true → s.cur = encode .init → s.initDone = false
  displayGate : s.busy = true →
    (s.cur = encode .clear ∨ s.cur = encode .wrcmd ∨ s.cur = encode .wrdata ∨ s.cur = encode .putc) → s.initDone = true
  delayCount : ∀ n rest, s.busy = true → s.seq = .dly n :: rest → s.wcnt.toNat < n.toNat
  waitCount : s.par.waitTimeout ≠ 0#24 → s.busy = true → (s.btReq = true ∨ s.adcReq = true) →
    s.wcnt.toNat < s.par.waitTimeout.toNat

/-- ERRCODE, the events and the holdoff counters. -/
structure DataInv (s : State) : Prop where
  errCode : s.errcode.toNat ≤ 7
  eventX : ¬ (s.evXPos = true ∧ s.evXNeg = true)
  eventY : ¬ (s.evYPos = true ∧ s.evYNeg = true)
  holdX : s.hx.toNat ≤ s.par.axisHoldoff.toNat
  holdY : s.hy.toNat ≤ s.par.axisHoldoff.toNat
  holdB : s.hb.toNat ≤ s.par.btnHoldoff.toNat

theorem inv_iff {s : State} : s.Inv ↔ SeqInv s ∧ DataInv s :=
  ⟨fun h => ⟨⟨h.busy_iff, h.program, h.initGate, h.displayGate, h.delayCount, h.waitCount⟩,
      ⟨h.errCode, h.eventX, h.eventY, h.holdX, h.holdY, h.holdB⟩⟩,
    fun ⟨hs, hd⟩ => ⟨hs.busy_iff, hs.program, hs.initGate, hs.displayGate, hs.delayCount, hs.waitCount,
      hd.errCode, hd.eventX, hd.eventY, hd.holdX, hd.holdY, hd.holdB⟩⟩

theorem toNat_pos {w : Nat} {n : BitVec w} (h : n ≠ 0#w) : 0 < n.toNat :=
  Nat.pos_of_ne_zero fun h0 => h (BitVec.eq_of_toNat_eq (by simpa using h0))

section SeqInv

variable {s t : State}

theorem seqInv_of_idle (hb : s.busy = false) (hseq : s.seq = []) : SeqInv s where
  busy_iff := by simp [hb, hseq]
  program h := by rw [hb] at h; cases h
  initGate h := by rw [hb] at h; cases h
  displayGate h := by rw [hb] at h; cases h
  delayCount _ _ h := by rw [hb] at h; cases h
  waitCount _ h := by rw [hb] at h; cases h

theorem SeqInv.seq_of_idle (hs : SeqInv s) (hb : s.busy = false) : s.seq = [] := by
  by_contra hne
  rw [hs.busy_iff.mpr hne] at hb
  cases hb

/-- The gates of R104 for the command in CUR: INIT runs with INIT_DONE = 0, the other display commands with 1. -/
def GateOpen (s : State) : Prop :=
  (s.cur = encode .init → s.initDone = false) ∧
    ((s.cur = encode .clear ∨ s.cur = encode .wrcmd ∨ s.cur = encode .wrdata ∨ s.cur = encode .putc) → s.initDone = true)

/-- At the first cycle of a micro-op nothing has been counted. -/
theorem seqInv_of_fresh (hb : s.busy = true) (hseq : s.seq ≠ []) (hprog : s.seqFromProgram) (hgate : GateOpen s)
    (hw : s.wcnt = 0#24) : SeqInv s where
  busy_iff := by simp [hb, hseq]
  program _ := hprog
  initGate _ := hgate.1
  displayGate _ := hgate.2
  delayCount n rest _ hs := by
    obtain ⟨i, _, hsuf⟩ := hprog
    rw [hs] at hsuf
    have hn : n ≠ 0#24 := by
      rintro rfl
      exact dly_zero_notMem_prog _ _ _ (hsuf.subset List.mem_cons_self)
    rw [hw]
    exact toNat_pos hn
  waitCount hp _ _ := by
    rw [hw]
    exact toNat_pos hp

theorem encode_injective {i j : Instr} (h : encode i = encode j) : i = j := by
  have hd := decode_encode i
  rw [h, decode_encode j] at hd
  cases hd
  rfl

/-- An open gate at acceptance is R104's condition on INIT_DONE. -/
theorem gateOpen_of_gate {i : Instr} (hgate : gate s i = none) (hcur : t.cur = encode i)
    (hdone : t.initDone = s.initDone) : GateOpen t := by
  refine ⟨fun h => ?_, fun h => ?_⟩
  · obtain rfl := encode_injective (hcur.symm.trans h)
    rw [hdone]
    simpa [gate, gateReinit] using hgate
  · have hi : NeedsInit i := by
      rcases h with h | h | h | h <;> simp [NeedsInit, encode_injective (hcur.symm.trans h)]
    rw [hdone]
    cases hinit : s.initDone with
    | true => rfl
    | false => rw [gate_of_needsInit hi hinit] at hgate; cases hgate

theorem seqInv_of_accept {i : Instr} (hgate : gate s i = none)
    (ht : t = accept s (encode i) (prog s.par s.data i) (perCycle s)) : SeqInv t := by
  subst ht
  exact seqInv_of_fresh rfl (prog_ne_nil _ _ i) ⟨i, decode_encode i, List.suffix_rfl⟩ (gateOpen_of_gate hgate rfl rfl) rfl

/-- WCNT's increment is exact below a bound that fits its width. -/
theorem satInc_toNat_of_lt {w b : Count} (h : w.toNat < b.toNat) : (satInc w).toNat = w.toNat + 1 := by
  have hb := b.isLt
  rw [satInc_toNat]
  omega

theorem seqInv_of_stay {u : MicroOp} {rest : List MicroOp} {d e : Byte} (hs : SeqInv s) (hb : s.busy = true)
    (hseq : s.seq = u :: rest) (hv : uopVerdict s u = .stay) :
    SeqInv (settled { perCycle s with wcnt := satInc s.wcnt } d e) where
  busy_iff := hs.busy_iff
  program := hs.program
  initGate := hs.initGate
  displayGate := hs.displayGate
  delayCount n rest' _ hseq' := by
    obtain ⟨rfl, rfl⟩ := List.cons.inj (hseq.symm.trans hseq')
    have hlt := hs.delayCount n rest hb hseq
    have hne : s.wcnt.toNat + 1 ≠ n.toNat := by
      simpa [uopVerdict] using hv
    simp only [settled_wcnt, satInc_toNat_of_lt hlt]
    omega
  waitCount hp _ hreq := by
    have hlt := hs.waitCount hp hb hreq
    have hnd : ¬ ∃ n, u = .dly n := by
      rintro ⟨n, rfl⟩
      rcases hreq with h | h
      · obtain ⟨_, w, rest', hseq'⟩ := btReq_iff.mp h
        cases hseq.symm.trans hseq'
      · obtain ⟨_, ch, rest', hseq'⟩ := adcReq_iff.mp h
        cases hseq.symm.trans hseq'
    have hx : ¬ s.waitExpires := by
      rcases uopVerdict_eq_stay_iff.mp hv with ⟨_, hx⟩ | ⟨n, hu, _⟩
      · exact hx
      · exact absurd ⟨n, hu⟩ hnd
    have hp' : s.par.waitTimeout ≠ 0#24 := hp
    simp only [settled_wcnt, satInc_toNat_of_lt hlt]
    exact (not_waitExpires_iff.mp hx).resolve_left hp

theorem uopEffect_initDone {u : MicroOp} (hu : u ≠ .setinit) (s acc : State) :
    (uopEffect s u acc).initDone = acc.initDone := by
  cases u with
  | setinit => exact absurd rfl hu
  | adc ch => cases ch <;> rfl
  | bw _ | dly _ | btncap | commit | lclr => rfl

theorem seqInv_of_pop {u : MicroOp} {rest : List MicroOp} {d e : Byte} (hs : SeqInv s) (hb : s.busy = true)
    (hseq : s.seq = u :: rest) : SeqInv (settled (popSeq rest (uopEffect s u (perCycle s))) d e) := by
  cases rest with
  | nil => exact seqInv_of_idle rfl rfl
  | cons v rest =>
    obtain ⟨i, hdec, hsuf⟩ := hs.program hb
    have hdone : (uopEffect s u (perCycle s)).initDone = s.initDone := by
      refine uopEffect_initDone ?_ s _
      rintro rfl
      rw [hseq] at hsuf
      cases setinit_suffix_prog _ hsuf
    refine seqInv_of_fresh rfl (List.cons_ne_nil v rest) ⟨i, ?_, ?_⟩ ⟨?_, ?_⟩ rfl
    · simpa using hdec
    · rw [hseq] at hsuf
      simpa using (List.suffix_cons u (v :: rest)).trans hsuf
    · simpa [hdone] using hs.initGate hb
    · simpa [hdone] using hs.displayGate hb

theorem step_keeps_seqInv (hs : SeqInv s) (h : step s = .next t) : SeqInv t := by
  cases stepCase_of_step h with
  | reset _ ht => subst ht; exact seqInv_of_idle rfl rfl
  | accepts c i _ _ _ _ hgate ht => exact seqInv_of_accept hgate ht
  | idles d e _ hb _ ht =>
    subst ht
    exact seqInv_of_idle hb (hs.seq_of_idle hb)
  | ends d e _ _ _ _ ht => subst ht; exact seqInv_of_idle rfl rfl
  | stays u rest d e _ hb hseq hv _ ht => subst ht; exact seqInv_of_stay hs hb hseq hv
  | pops u rest d e _ hb hseq _ _ ht => subst ht; exact seqInv_of_pop hs hb hseq
  | aborts u rest x d e _ _ _ _ _ ht => subst ht; exact seqInv_of_idle rfl rfl

end SeqInv

/-! ### The invariant's part about the other elements -/

section DataInv

variable {s t : State}

theorem HostEffect.err_le {x : Option ErrCode} {d e : Byte} (h : HostEffect s x d e) (hs : s.errcode.toNat ≤ 7) :
    e.toNat ≤ 7 := by
  rcases h.err with rfl | ⟨_, _, rfl⟩ | ⟨_, y, _, rfl⟩
  · exact raise_le hs x
  · exact raise_le (by decide) x
  · exact raise_le (raise_le hs x) (some y)

theorem step_keeps_errcode_le (hs : s.errcode.toNat ≤ 7) (h : step s = .next t) : t.errcode.toNat ≤ 7 := by
  cases hr : s.inputs.rst with
  | true =>
    rw [step_reset hr] at h
    cases h
    exact Nat.zero_le 7
  | false => exact (step_hostEffect hr h).err_le hs

theorem dec_toNat (h : Count) : (dec h).toNat = h.toNat - 1 := by
  unfold dec
  split
  · next h0 => simp [h0]
  · next h0 =>
    have hpos := toNat_pos h0
    have hlt := h.isLt
    simp only [BitVec.toNat_sub, BitVec.toNat_ofNat]
    omega

/-- The increment of a counter that was within its parameter keeps it there, and so does loading the parameter. -/
theorem hold_le {b : Bool} {h p : Count} (hle : h.toNat ≤ p.toNat) : (if b then p else dec h).toNat ≤ p.toNat := by
  cases b with
  | true => exact le_rfl
  | false =>
    simp only [Bool.false_eq_true, if_false, dec_toNat]
    omega

theorem step_keeps_hold_le (a : Axis) (hs : (axisUnit s a).hold.toNat ≤ s.par.axisHoldoff.toNat)
    (hr : s.inputs.rst = false) (h : step s = .next t) : (axisUnit t a).hold.toNat ≤ t.par.axisHoldoff.toNat := by
  rw [step_par h, step_hold_axis a hr h]
  exact hold_le hs

/-- A commit reports at most one direction of an axis, and between commits EVENT stays. -/
theorem step_keeps_one_event (a : Axis) (hs : ¬ ((axisUnit s a).evPos = true ∧ (axisUnit s a).evNeg = true))
    (hr : s.inputs.rst = false) (h : step s = .next t) : ¬ ((axisUnit t a).evPos = true ∧ (axisUnit t a).evNeg = true) := by
  cases hc : s.performs .commit with
  | true =>
    obtain ⟨_, hpos, hneg⟩ := step_commit_axis a hc h
    rw [hpos, hneg, beq_iff_eq, beq_iff_eq]
    rintro ⟨h1, h2⟩
    cases h1.symm.trans h2
  | false =>
    obtain ⟨hpos, hneg⟩ := step_keeps_events a hr hc h
    rwa [hpos, hneg]

theorem dataInv_resetWith (p : Params) : DataInv (State.resetWith p) where
  errCode := Nat.zero_le 7
  eventX := by simp [State.resetWith]
  eventY := by simp [State.resetWith]
  holdX := Nat.zero_le _
  holdY := Nat.zero_le _
  holdB := Nat.zero_le _

theorem step_keeps_dataInv (hs : DataInv s) (h : step s = .next t) : DataInv t := by
  cases hr : s.inputs.rst with
  | true =>
    rw [step_reset hr] at h
    cases h
    obtain ⟨herr, hex, hey, hx, hy, hb⟩ := dataInv_resetWith s.par
    exact ⟨herr, hex, hey, hx, hy, hb⟩
  | false =>
    exact
      { errCode := step_keeps_errcode_le hs.errCode h
        eventX := step_keeps_one_event .x hs.eventX hr h
        eventY := step_keeps_one_event .y hs.eventY hr h
        holdX := step_keeps_hold_le .x hs.holdX hr h
        holdY := step_keeps_hold_le .y hs.holdY hr h
        holdB := by
          rw [step_par h, step_hold_button hr h]
          exact hold_le hs.holdB }

end DataInv

/-! ### The obligations -/

theorem inv_resetWith (p : Params) : (State.resetWith p).Inv :=
  inv_iff.mpr ⟨seqInv_of_idle rfl rfl, dataInv_resetWith p⟩

/-- Settles O46: after reset the machine is idle with an empty list, and ERRCODE, events and counters are 0. -/
theorem resetMeetsInvariant : Obligations.ResetMeetsInvariant :=
  ⟨inv_resetWith Config.params, inv_resetWith⟩

/-- Settles O47: the command in progress case by case of the step, the other elements by what each cycle writes to them. -/
theorem stepKeepsInvariant : Obligations.StepKeepsInvariant := by
  intro s t hs h
  obtain ⟨hseq, hdata⟩ := inv_iff.mp hs
  exact inv_iff.mpr ⟨step_keeps_seqInv hseq h, step_keeps_dataInv hdata h⟩

/-- Settles O48: the word presented is in the list of the command in CUR, which is a display command's, and that command's
gate was open. -/
theorem emittedBusWords : Obligations.EmittedBusWords := by
  intro s w hs hw
  obtain ⟨hb, rest, hseq⟩ := busWord?_eq_some_iff.mp hw
  obtain ⟨i, hdec, hsuf⟩ := hs.program hb
  rw [hseq] at hsuf
  obtain ⟨⟨n, en, rs, rfl⟩, hi⟩ := bw_mem_prog s.par (hsuf.subset List.mem_cons_self)
  obtain ⟨_, h3, _, h1, _⟩ := busWord_bits n en rs
  have hcur := encode_of_decode hdec
  refine ⟨h3, h1, ?_⟩
  rcases hi with rfl | hi
  · exact .inl ⟨hcur.symm, hs.initGate hb hcur.symm⟩
  · have hgate : s.cur = encode .clear ∨ s.cur = encode .wrcmd ∨ s.cur = encode .wrdata ∨ s.cur = encode .putc := by
      rcases hi with rfl | rfl | rfl | rfl <;> simp [← hcur]
    refine .inr ⟨?_, hs.displayGate hb hgate⟩
    rw [← hcur]
    rcases hi with rfl | rfl | rfl | rfl <;> decide

end Sys2Proof.Proofs
end

section
/-! A command from its acceptance to its end (20_memory.md R47; 40_sequencer.md R69 to R76; 70_reset_and_hazards.md R135):
what a cycle that does not abort sends and how much it leaves to do. Then the obligations: the words sent, the durations,
the whole display commands, and the bound on every command. -/

namespace Sys2Proof.Proofs

open Sys2Proof.Machine Sys2Proof.Laws

/-! ### A running cycle that does not abort -/

section Running

variable {s t : State}

/-- Without an abort a running command goes on with its micro-op or with the rest of its list; only the end of SETINIT
writes INIT_DONE. -/
theorem step_unaborted (hb : s.busy = true) (hna : s.noAbort = true) (h : step s = .next t) :
    (s.seq = [] ∧ t.seq = [] ∧ t.initDone = s.initDone) ∨
    (∃ u rest, s.seq = u :: rest ∧ uopVerdict s u = .stay ∧ t.seq = u :: rest ∧ t.wcnt = satInc s.wcnt ∧
      t.initDone = s.initDone) ∨
    (∃ u rest, s.seq = u :: rest ∧ uopVerdict s u = .pop ∧ t.seq = rest ∧ t.wcnt = 0#24 ∧
      t.initDone = (uopEffect s u (perCycle s)).initDone) := by
  obtain ⟨hr, hraise⟩ := noAbort_iff.mp hna
  cases stepCase_of_step h with
  | reset hrst => rw [hr] at hrst; cases hrst
  | accepts _ _ _ hidle => rw [hb] at hidle; cases hidle
  | idles _ _ _ hidle => rw [hb] at hidle; cases hidle
  | ends d e _ _ hseq _ ht => subst ht; exact .inl ⟨hseq, rfl, rfl⟩
  | stays u rest d e _ _ hseq hv _ ht => subst ht; exact .inr (.inl ⟨u, rest, hseq, hv, hseq, rfl, rfl⟩)
  | pops u rest d e _ _ hseq hv _ ht => subst ht; exact .inr (.inr ⟨u, rest, hseq, hv, rfl, rfl, rfl⟩)
  | aborts u rest x d e _ _ hseq hv _ _ => exact absurd hv ((seqRaise_eq_none_iff hb hseq).mp hraise x)

/-- CUR and OPR stay while a command runs. -/
theorem step_busy_cur_opr (hr : s.inputs.rst = false) (hb : s.busy = true) (h : step s = .next t) :
    t.cur = s.cur ∧ t.opr = s.opr := by
  obtain ⟨d, e, hs⟩ := step_busy hr hb
  cases hs.symm.trans h
  exact ⟨cycle_cur s false none, cycle_opr s false none⟩

end Running

/-! ### The words sent (R76) -/

section Trace

variable {s t : State}

theorem busEvent?_of_no_request (h : s.busWord? = none) : s.busEvent? = none := by
  simp [State.busEvent?, h]

theorem busEvent?_of_request {w : Byte} (h : s.busWord? = some w) (hr : s.inputs.rst = false) :
    s.busEvent? = if s.inputs.btDone then some ⟨s.par.lcdAddr, w, s.inputs.btOk⟩ else none := by
  simp [State.busEvent?, h, hr, State.btAddr]

theorem busWords_cons_of_no_word {u : MicroOp} (hu : ∀ w, u ≠ .bw w) (rest : List MicroOp) :
    busWords (u :: rest) = busWords rest := by
  cases u with
  | bw w => exact absurd rfl (hu w)
  | dly _ | adc _ | btncap | commit | lclr | setinit => rfl

/-- One cycle: the word acknowledged in it, if any, followed by the words left, are the words there were. -/
theorem busEvent_step (hb : s.busy = true) (hna : s.noAbort = true) (h : step s = .next t) :
    s.busEvent?.toList.map BusEvent.word ++ busWords t.seq = busWords s.seq ∧
      ∀ e ∈ s.busEvent?.toList, e.ok = true ∧ e.addr = s.par.lcdAddr := by
  obtain ⟨hr, _⟩ := noAbort_iff.mp hna
  rcases step_unaborted hb hna h with ⟨hseq, hseq', _⟩ | ⟨u, rest, hseq, hv, hseq', _⟩ | ⟨u, rest, hseq, hv, hseq', _⟩
  · have hno : s.busEvent? = none := busEvent?_of_no_request (by simp [State.busWord?, hseq])
    simp [hno, hseq, hseq']
  · have hno : s.busEvent? = none := by
      cases u with
      | bw w =>
        have hd : s.inputs.btDone = false := by
          rcases uopVerdict_eq_stay_iff.mp hv with ⟨⟨e, he⟩, _⟩ | ⟨n, hn, _⟩
          · exact (unanswered_bw_iff.mp he).1
          · cases hn
        rw [busEvent?_of_request (busWord?_eq_some_iff.mpr ⟨hb, rest, hseq⟩) hr, hd]
        rfl
      | dly _ | adc _ | btncap | commit | lclr | setinit =>
        exact busEvent?_of_no_request (busWord?_of_head hseq (by simp))
    simp [hno, hseq, hseq']
  · rw [hseq, hseq']
    cases u with
    | bw w =>
      obtain ⟨hd, hok⟩ := uopVerdict_eq_pop_iff.mp hv
      rw [busEvent?_of_request (busWord?_eq_some_iff.mpr ⟨hb, rest, hseq⟩) hr, hd, hok]
      simp [busWords]
    | dly _ | adc _ | btncap | commit | lclr | setinit =>
      rw [busEvent?_of_no_request (busWord?_of_head hseq (by simp)), busWords_cons_of_no_word (by simp)]
      simp

theorem busEvent_eq {e : BusEvent} {a : BusAddr} (hok : e.ok = true) (haddr : e.addr = a) : e = ⟨a, e.word, true⟩ := by
  cases e
  cases hok
  cases haddr
  rfl

theorem busTrace_run (k : Nat) (hd : during k (fun v => v.busy && v.noAbort) s = true) (h : run k s = .next t) :
    (busTrace k s).map BusEvent.word ++ busWords t.seq = busWords s.seq ∧
      ∀ e ∈ busTrace k s, e.ok = true ∧ e.addr = s.par.lcdAddr := by
  induction k generalizing s with
  | zero => cases h; simp
  | succ k ih =>
    obtain ⟨v, hv⟩ := step_total s
    rw [during_succ hv, Bool.and_eq_true, Bool.and_eq_true] at hd
    obtain ⟨⟨hb, hna⟩, hd⟩ := hd
    rw [run_succ hv] at h
    obtain ⟨hword, hok⟩ := busEvent_step hb hna hv
    obtain ⟨hwords, hoks⟩ := ih hd h
    rw [busTrace_succ hv]
    refine ⟨by rw [List.map_append, List.append_assoc, hwords, hword], List.forall_mem_append.mpr ⟨hok, ?_⟩⟩
    rwa [step_par hv] at hoks

end Trace

/-! ### What is left to do (R135)

The cycles that a list takes beside its requests: the head's, of which `w` are over where it is a delay, and the
others'. -/

/-- The delays and the one-cycle micro-ops left, with `w` cycles of a delay at the head over. -/
def workLeft (w : Count) : List MicroOp → Nat
  | .dly n :: rest => n.toNat - w.toNat + (delayCycles rest + oneCycleOps rest)
  | l => delayCycles l + oneCycleOps l

theorem workLeft_nil (w : Count) : workLeft w [] = 0 := rfl

theorem workLeft_zero (l : List MicroOp) : workLeft 0#24 l = delayCycles l + oneCycleOps l := by
  cases l with
  | nil => rfl
  | cons u rest => cases u <;> simp [workLeft, delayCycles, oneCycleOps, Nat.add_assoc]

section Work

variable {s t : State}

/-- One cycle: a request leaves the work as it is, and any other cycle of a command is one cycle of it. -/
theorem workLeft_step (hs : SeqInv s) (hb : s.busy = true) (hna : s.noAbort = true) (h : step s = .next t) :
    workLeft t.wcnt t.seq + 1 = workLeft s.wcnt s.seq + if s.btReq || s.adcReq then 1 else 0 := by
  have hreq : ∀ u rest, s.seq = u :: rest →
      (s.btReq || s.adcReq) = (match u with | .bw _ => true | .adc _ => true | _ => false) := by
    intro u rest hseq
    cases u <;> simp [State.btReq, State.busWord?, State.adcReq, State.adcAxis?, hb, hseq]
  rcases step_unaborted hb hna h with ⟨hseq, _⟩ | ⟨u, rest, hseq, hv, hseq', hw, _⟩ | ⟨u, rest, hseq, hv, hseq', hw, _⟩
  · exact absurd hseq (hs.busy_iff.mp hb)
  · rw [hseq', hw, hreq u rest hseq, hseq]
    rcases uopVerdict_eq_stay_iff.mp hv with ⟨⟨e, he⟩, _⟩ | ⟨n, rfl, hn⟩
    · cases u with
      | bw _ | adc _ => rfl
      | dly _ | btncap | commit | lclr | setinit => cases he
    · have hlt := hs.delayCount n rest hb hseq
      simp only [workLeft, satInc_toNat_of_lt hlt, Bool.false_eq_true, if_false]
      omega
  · rw [hseq', hw, hreq u rest hseq, hseq, workLeft_zero]
    cases u with
    | bw _ | adc _ => rfl
    | dly n =>
      have hn : s.wcnt.toNat + 1 = n.toNat := uopVerdict_eq_pop_iff.mp hv
      simp only [workLeft, Bool.false_eq_true, if_false]
      omega
    | btncap | commit | lclr | setinit => simp [workLeft, delayCycles, oneCycleOps, Nat.add_assoc]

theorem workLeft_run (k : Nat) (hs : SeqInv s) (hd : during k (fun v => v.busy && v.noAbort) s = true)
    (h : run k s = .next t) :
    workLeft t.wcnt t.seq + k = workLeft s.wcnt s.seq + cyclesWith k (fun v => v.btReq || v.adcReq) s := by
  induction k generalizing s with
  | zero => cases h; rfl
  | succ k ih =>
    obtain ⟨v, hv⟩ := step_total s
    rw [during_succ hv, Bool.and_eq_true, Bool.and_eq_true] at hd
    obtain ⟨⟨hb, hna⟩, hd⟩ := hd
    rw [run_succ hv] at h
    have hone := workLeft_step hs hb hna hv
    have hrest := ih (step_keeps_seqInv hs hv) hd h
    rw [cyclesWith_succ hv]
    omega

end Work

/-! ### Acceptance -/

/-- A command that makes an idle machine busy was accepted. -/
theorem exec_makes_busy {s t : State} {i : Instr} (hb : s.busy = false) (h : exec i s = .next t) (ht : t.busy = true) :
    gate s i = none ∧ t = accept s (encode i) (prog s.par s.data i) (perCycle s) := by
  cases hg : gate s i with
  | some x =>
    rw [exec_refused (decode_encode i) ((cmdRefusal_command hb (decode_encode i)).trans hg), cycle_idle hb] at h
    cases h
    have hbusy : s.busy = true := ht
    rw [hb] at hbusy
    cases hbusy
  | none =>
    rw [exec_accepted hb hg, cycle_idle_plain hb] at h
    cases h
    exact ⟨rfl, rfl⟩

/-! ### The lists' words and cycles -/

section Lists

variable (p : Params)

@[simp] theorem oneCycleOps_nib (n : Nibble) (rs : BitVec 1) : oneCycleOps (nib p n rs) = 0 := by
  simp [nib, oneCycleOps]

@[simp] theorem oneCycleOps_byteSeq (b : Byte) (rs : BitVec 1) : oneCycleOps (byteSeq p b rs) = 0 := by
  simp [byteSeq]

theorem busWords_progInit : busWords (progInit p) = initWords := by
  simp only [progInit, busWords_append, busWords_delay, busWords_nib, busWords_byteSeq]
  decide

theorem delayCycles_progInit :
    delayCycles (progInit p) =
      p.tPowerOn.toNat + p.tInit1.toNat + p.tInit2.toNat + p.tInit3.toNat + 12 * p.tEn.toNat + p.tClear.toNat := by
  simp only [progInit, delayCycles_append, delayCycles_delay, delayCycles_nib, delayCycles_byteSeq, delayCycles]
  omega

theorem oneCycleOps_progInit : oneCycleOps (progInit p) = 1 := by
  simp [progInit, oneCycleOps]

/-- The cycles of a command beside its requests (70_reset_and_hazards.md R135). -/
def ownCycles : Instr → Nat
  | .init => p.tPowerOn.toNat + p.tInit1.toNat + p.tInit2.toNat + p.tInit3.toNat + 12 * p.tEn.toNat + p.tClear.toNat + 1
  | .clear => 2 * p.tEn.toNat + p.tClear.toNat
  | .wrcmd => 2 * p.tEn.toNat
  | .wrdata => 2 * p.tEn.toNat
  | .putc => 2 * p.tEn.toNat
  | .sample => 2
  | .latchclr => 1

theorem prog_cycles (d : Byte) (i : Instr) :
    delayCycles (prog p d i) + oneCycleOps (prog p d i) = ownCycles p i := by
  cases i with
  | init => rw [prog, delayCycles_progInit, oneCycleOps_progInit, ownCycles]
  | clear => simp [prog, progClear, delayCycles_byteSeq, ownCycles]
  | wrcmd => simp [prog, progWrcmd, delayCycles_byteSeq, ownCycles]
  | wrdata => simp [prog, progWrdata, delayCycles_byteSeq, ownCycles]
  | putc =>
    rw [prog, progPutc]
    split <;> simp [delayCycles_byteSeq, ownCycles]
  | sample => rfl
  | latchclr => rfl

end Lists

/-! ### A display command with a transport that answers at once -/

/-- Bus words, delays and SETINIT: what a display command's list is made of. -/
def DisplayList (l : List MicroOp) : Prop :=
  ∀ u ∈ l, IsTransfer u ∨ u = .setinit

theorem displayList_progInit (p : Params) : DisplayList (progInit p) := by
  obtain ⟨l, hl, hall⟩ := progInit_eq p
  rw [hl]
  exact List.forall_mem_append.mpr ⟨fun u hu => .inl (hall u hu), fun u hu => .inr (List.mem_singleton.mp hu)⟩

/-- What the sampler and the button detector hold, as `sameInputUnits` compares it. -/
def inputUnits (s : State) :=
  (committed s, s.lx, s.ly, s.xs, s.ys, s.bs)

theorem sameInputUnits_iff {s t : State} : sameInputUnits s t ↔ inputUnits t = inputUnits s := by
  simp only [sameInputUnits, inputUnits, committed, Prod.mk.injEq]
  tauto

section Display

variable {s t : State}

/-- The requests and the other work left: the cycles that the rest of the list takes with immediate answers. -/
def cyclesLeft (s : State) : Nat :=
  (busWords s.seq).length + workLeft s.wcnt s.seq

theorem display_head {u : MicroOp} {rest : List MicroOp} (hq : DisplayList s.seq) (hseq : s.seq = u :: rest) :
    (∃ w, u = .bw w) ∨ (∃ n, u = .dly n) ∨ u = .setinit := by
  rw [hseq] at hq
  rcases hq u List.mem_cons_self with (⟨n, en, rs, h⟩ | ⟨m, h⟩) | h
  · exact .inl ⟨_, h⟩
  · exact .inr (.inl ⟨m, h⟩)
  · exact .inr (.inr h)

theorem adcReq_of_display (hq : DisplayList s.seq) : s.adcReq = false := by
  refine Bool.eq_false_iff.mpr fun hreq => ?_
  obtain ⟨_, ch, rest, hseq⟩ := adcReq_iff.mp hreq
  rcases display_head hq hseq with ⟨w, h⟩ | ⟨n, h⟩ | h <;> cases h

theorem busAnswersOk_iff : s.busAnswersOk = true ↔
    s.inputs.rst = false ∧ (s.btReq = true → s.inputs.btDone = true ∧ s.inputs.btOk = true) := by
  cases hq : s.btReq <;> simp [State.busAnswersOk, hq]

theorem noAbort_of_answers (hq : DisplayList s.seq) (hb : s.busy = true) (ha : s.busAnswersOk = true) :
    s.noAbort = true := by
  obtain ⟨hr, hans⟩ := busAnswersOk_iff.mp ha
  refine noAbort_iff.mpr ⟨hr, ?_⟩
  cases hseq : s.seq with
  | nil => simp [seqRaise, hseq]
  | cons u rest =>
    rw [seqRaise_eq_none_iff hb hseq]
    rcases display_head hq hseq with ⟨w, rfl⟩ | ⟨n, rfl⟩ | rfl
    · obtain ⟨hd, hok⟩ := hans (btReq_iff.mpr ⟨hb, w, rest, hseq⟩)
      rw [bw_aborts_never_iff, hd, hok]
      simp
    · simp [uopVerdict_eq_abort_iff, unanswered]
    · simp [uopVerdict_eq_abort_iff, unanswered]

theorem cyclesLeft_pos (hs : SeqInv s) (hq : DisplayList s.seq) (hb : s.busy = true) : 0 < cyclesLeft s := by
  obtain ⟨u, rest, hseq⟩ := List.exists_cons_of_ne_nil (hs.busy_iff.mp hb)
  unfold cyclesLeft
  rw [hseq]
  rcases display_head hq hseq with ⟨w, rfl⟩ | ⟨n, rfl⟩ | rfl
  · simp [busWords]
  · have hlt := hs.delayCount n rest hb hseq
    simp only [workLeft]
    omega
  · simp [workLeft, oneCycleOps]

theorem step_keeps_displayList (hq : DisplayList s.seq) (hb : s.busy = true) (hna : s.noAbort = true)
    (h : step s = .next t) : DisplayList t.seq := by
  rcases step_unaborted hb hna h with ⟨_, hseq', _⟩ | ⟨u, rest, hseq, _, hseq', _⟩ | ⟨u, rest, hseq, _, hseq', _⟩
  · rw [hseq']
    exact fun u hu => absurd hu List.not_mem_nil
  · rwa [hseq', ← hseq]
  · rw [hseq] at hq
    rw [hseq']
    exact fun v hv => hq v (List.mem_cons_of_mem u hv)

/-- With immediate answers each cycle is one of those left. -/
theorem cyclesLeft_step (hs : SeqInv s) (hq : DisplayList s.seq) (hb : s.busy = true) (ha : s.busAnswersOk = true)
    (h : step s = .next t) : cyclesLeft t + 1 = cyclesLeft s := by
  obtain ⟨hr, hans⟩ := busAnswersOk_iff.mp ha
  have hna := noAbort_of_answers hq hb ha
  have hevent : s.busEvent?.toList.length = if s.btReq then 1 else 0 := by
    cases hw : s.busWord? with
    | none => simp [busEvent?_of_no_request hw, State.btReq, hw]
    | some w =>
      have hreq : s.btReq = true := by simp [State.btReq, hw]
      simp [busEvent?_of_request hw hr, hreq, hans hreq]
  have hwords := congrArg List.length (busEvent_step hb hna h).1
  rw [List.length_append, List.length_map, hevent] at hwords
  have hwork := workLeft_step hs hb hna h
  rw [adcReq_of_display hq, Bool.or_false] at hwork
  unfold cyclesLeft
  omega

/-- With immediate answers the command is busy for the cycles left, without an abort, and then over. -/
theorem run_display {m : Nat} (hs : SeqInv s) (hq : DisplayList s.seq) (hm : cyclesLeft s = m)
    (ha : during m State.busAnswersOk s = true) :
    during m (fun v => v.busy && v.noAbort) s = true ∧ ∃ t, run m s = .next t ∧ t.busy = false ∧ t.seq = [] := by
  induction m generalizing s with
  | zero =>
    cases hb : s.busy with
    | true =>
      have hpos := cyclesLeft_pos hs hq hb
      omega
    | false => exact ⟨rfl, s, rfl, hb, hs.seq_of_idle hb⟩
  | succ m ih =>
    cases hb : s.busy with
    | false =>
      rw [cyclesLeft, hs.seq_of_idle hb] at hm
      cases hm
    | true =>
      obtain ⟨v, hv⟩ := step_total s
      rw [during_succ hv, Bool.and_eq_true] at ha
      have hna := noAbort_of_answers hq hb ha.1
      have hleft := cyclesLeft_step hs hq hb ha.1 hv
      rw [during_succ hv, run_succ hv, hb, hna, Bool.and_self, Bool.true_and]
      exact ih (step_keeps_seqInv hs hv) (step_keeps_displayList hq hb hna hv) (by omega) ha.2

/-- How a display command that began in `s` stands in `v`: its list, what it has not touched, and that INIT_DONE is set or
is still to be set. -/
structure DisplayProgress (s v : State) : Prop where
  list : DisplayList v.seq
  units : inputUnits v = inputUnits s
  cur : v.cur = s.cur
  opr : v.opr = s.opr
  done : v.initDone = true ∨ .setinit ∈ v.seq

theorem step_keeps_inputUnits (hq : DisplayList s.seq) (hr : s.inputs.rst = false) (h : step s = .next t) :
    inputUnits t = inputUnits s := by
  refine step_keeps inputUnits (fun _ _ => rfl) hr h rfl fun u hu => ?_
  obtain ⟨_, _, rest, hseq⟩ := (performs_iff s u).mp hu
  rcases display_head hq hseq with ⟨w, rfl⟩ | ⟨n, rfl⟩ | rfl <;> rfl

theorem step_keeps_done (hb : s.busy = true) (hna : s.noAbort = true) (hd : s.initDone = true ∨ .setinit ∈ s.seq)
    (h : step s = .next t) : t.initDone = true ∨ .setinit ∈ t.seq := by
  rcases step_unaborted hb hna h with ⟨hseq, hseq', hdone⟩ | ⟨u, rest, hseq, _, hseq', _, hdone⟩ |
    ⟨u, rest, hseq, _, hseq', _, hdone⟩
  · rwa [hdone, hseq', ← hseq]
  · rwa [hdone, hseq', ← hseq]
  · rw [hdone, hseq']
    by_cases hu : u = .setinit
    · subst hu
      exact .inl rfl
    · rw [uopEffect_initDone hu, perCycle_initDone]
      refine hd.imp_right fun hmem => ?_
      rw [hseq] at hmem
      exact (List.mem_cons.mp hmem).resolve_left (Ne.symm hu)

theorem step_keeps_displayProgress {s₀ : State} (hp : DisplayProgress s₀ s) (hb : s.busy = true)
    (hna : s.noAbort = true) (h : step s = .next t) : DisplayProgress s₀ t := by
  obtain ⟨hr, _⟩ := noAbort_iff.mp hna
  obtain ⟨hcur, hopr⟩ := step_busy_cur_opr hr hb h
  exact
    { list := step_keeps_displayList hp.list hb hna h
      units := (step_keeps_inputUnits hp.list hr h).trans hp.units
      cur := hcur.trans hp.cur
      opr := hopr.trans hp.opr
      done := step_keeps_done hb hna hp.done h }

/-- A display command just accepted in `t`, with immediate answers: it lasts its cycles, sends its words, and sets or keeps
INIT_DONE. -/
theorem display_performed {n : Nat} (hs : SeqInv t) (hq : DisplayList t.seq) (hw : t.wcnt = 0#24)
    (hdone : t.initDone = true ∨ .setinit ∈ t.seq)
    (hn : n = (busWords t.seq).length + (delayCycles t.seq + oneCycleOps t.seq))
    (ha : during n State.busAnswersOk t = true) :
    ∃ u, run n t = .next u ∧ u.busy = false ∧ u.seq = [] ∧ u.initDone = true ∧ sameInputUnits t u ∧ u.par = t.par ∧
      u.cur = t.cur ∧ u.opr = t.opr ∧ busTrace n t = (busWords t.seq).map (fun w => ⟨t.par.lcdAddr, w, true⟩) ∧
      during n State.busy t = true := by
  have hleft : cyclesLeft t = n := by rw [cyclesLeft, hw, workLeft_zero, hn]
  obtain ⟨hd, u, hu, hb, hseq⟩ := run_display hs hq hleft ha
  obtain ⟨hwords, hevents⟩ := busTrace_run n hd hu
  have hstart : DisplayProgress t t := ⟨hq, rfl, rfl, rfl, hdone⟩
  have hend : DisplayProgress t u :=
    run_keeps (fun hp hpv hstep => by
      obtain ⟨hvb, hna⟩ := Bool.and_eq_true_iff.mp hpv
      exact step_keeps_displayProgress hp hvb hna hstep) hstart hd hu
  have hdone' : u.initDone = true := hend.done.resolve_right (by simp [hseq])
  have htrace : busTrace n t = (busWords t.seq).map (fun w => ⟨t.par.lcdAddr, w, true⟩) := by
    rw [hseq, busWords, List.append_nil] at hwords
    rw [← hwords, List.map_map]
    calc busTrace n t
      _ = (busTrace n t).map id := (List.map_id _).symm
      _ = (busTrace n t).map ((fun w => ⟨t.par.lcdAddr, w, true⟩) ∘ BusEvent.word) :=
        List.map_congr_left fun e he => by
          obtain ⟨hok, haddr⟩ := hevents e he
          exact busEvent_eq hok haddr
  exact ⟨u, hu, hb, hseq, hdone', sameInputUnits_iff.mpr hend.units, run_par hu, hend.cur, hend.opr, htrace,
    during_mono (fun v hv => (Bool.and_eq_true_iff.mp hv).1) hd⟩

end Display

/-! ### What is left to wait (R69 to R72) -/

/-- `waitBound` of a list, less the cycles `w` that its head has spent. -/
def waitLeft (p : Nat) (w : Count) : List MicroOp → Nat
  | .bw _ :: rest => p - w.toNat + waitBound p rest
  | .adc _ :: rest => p - w.toNat + waitBound p rest
  | .dly n :: rest => n.toNat - w.toNat + waitBound p rest
  | l => waitBound p l

theorem waitLeft_zero (p : Nat) (l : List MicroOp) : waitLeft p 0#24 l = waitBound p l := by
  cases l with
  | nil => rfl
  | cons u rest => cases u <;> rfl

theorem waitLeft_le (p : Nat) (w : Count) (l : List MicroOp) : waitLeft p w l ≤ waitBound p l := by
  cases l with
  | nil => exact le_rfl
  | cons u rest => cases u <;> simp [waitLeft, waitBound]

section Wait

variable {s t : State}

/-- The head's share of what is left is not used up. -/
theorem waitBound_rest_lt {u : MicroOp} {rest : List MicroOp} (hs : SeqInv s) (hp : s.par.waitTimeout ≠ 0#24)
    (hb : s.busy = true) (hseq : s.seq = u :: rest) :
    waitBound s.par.waitTimeout.toNat rest < waitLeft s.par.waitTimeout.toNat s.wcnt (u :: rest) := by
  cases u with
  | bw w =>
    have hlt := hs.waitCount hp hb (.inl (btReq_iff.mpr ⟨hb, w, rest, hseq⟩))
    simp only [waitLeft]
    omega
  | adc ch =>
    have hlt := hs.waitCount hp hb (.inr (adcReq_iff.mpr ⟨hb, ch, rest, hseq⟩))
    simp only [waitLeft]
    omega
  | dly n =>
    have hlt := hs.delayCount n rest hb hseq
    simp only [waitLeft]
    omega
  | btncap | commit | lclr | setinit => simp [waitLeft, waitBound]

/-- A cycle that stays uses up one of its head's. -/
theorem waitLeft_stay {u : MicroOp} {rest : List MicroOp} (hs : SeqInv s) (hp : s.par.waitTimeout ≠ 0#24)
    (hb : s.busy = true) (hseq : s.seq = u :: rest) (hv : uopVerdict s u = .stay) :
    waitLeft s.par.waitTimeout.toNat (satInc s.wcnt) (u :: rest) < waitLeft s.par.waitTimeout.toNat s.wcnt (u :: rest) := by
  cases u with
  | bw w =>
    have hlt := hs.waitCount hp hb (.inl (btReq_iff.mpr ⟨hb, w, rest, hseq⟩))
    simp only [waitLeft, satInc_toNat_of_lt hlt]
    omega
  | adc ch =>
    have hlt := hs.waitCount hp hb (.inr (adcReq_iff.mpr ⟨hb, ch, rest, hseq⟩))
    simp only [waitLeft, satInc_toNat_of_lt hlt]
    omega
  | dly n =>
    have hlt := hs.delayCount n rest hb hseq
    simp only [waitLeft, satInc_toNat_of_lt hlt]
    omega
  | btncap | commit | lclr | setinit => simp [uopVerdict] at hv

/-- With bounded waits every cycle of a command brings its end nearer, whatever the ports and the host do. -/
theorem waitLeft_step (hs : SeqInv s) (hp : s.par.waitTimeout ≠ 0#24) (hr : s.inputs.rst = false) (hb : s.busy = true)
    (h : step s = .next t) :
    t.busy = false ∨ waitLeft s.par.waitTimeout.toNat t.wcnt t.seq < waitLeft s.par.waitTimeout.toNat s.wcnt s.seq := by
  cases stepCase_of_step h with
  | reset hrst => rw [hr] at hrst; cases hrst
  | accepts _ _ _ hidle => rw [hb] at hidle; cases hidle
  | idles _ _ _ hidle => rw [hb] at hidle; cases hidle
  | ends d e _ _ _ _ ht => subst ht; exact .inl rfl
  | aborts u rest x d e _ _ _ _ _ ht => subst ht; exact .inl rfl
  | stays u rest d e _ _ hseq hv _ ht =>
    subst ht
    refine .inr ?_
    simpa [hseq] using waitLeft_stay hs hp hb hseq hv
  | pops u rest d e _ _ hseq _ _ ht =>
    subst ht
    refine .inr ?_
    simpa [hseq, waitLeft_zero] using waitBound_rest_lt hs hp hb hseq

theorem run_bounded {m : Nat} (hs : SeqInv s) (hp : s.par.waitTimeout ≠ 0#24)
    (hm : waitLeft s.par.waitTimeout.toNat s.wcnt s.seq ≤ m) (hd : during m State.noReset s = true) :
    ∃ k ≤ m, ∃ t, run k s = .next t ∧ t.busy = false := by
  induction m generalizing s with
  | zero =>
    refine ⟨0, le_rfl, s, rfl, Bool.eq_false_iff.mpr fun hb => ?_⟩
    obtain ⟨u, rest, hseq⟩ := List.exists_cons_of_ne_nil (hs.busy_iff.mp hb)
    have hlt := waitBound_rest_lt hs hp hb hseq
    rw [hseq] at hm
    omega
  | succ m ih =>
    cases hb : s.busy with
    | false => exact ⟨0, Nat.zero_le _, s, rfl, hb⟩
    | true =>
      obtain ⟨v, hv⟩ := step_total s
      rw [during_succ hv, Bool.and_eq_true] at hd
      have hr : s.inputs.rst = false := by simpa [State.noReset] using hd.1
      rcases waitLeft_step hs hp hr hb hv with hvb | hlt
      · exact ⟨1, by omega, v, by rw [run_succ hv, run_zero], hvb⟩
      · have hpar := step_par hv
        obtain ⟨k, hk, t, ht, htb⟩ := ih (step_keeps_seqInv hs hv) (by rwa [hpar]) (by rw [hpar]; omega) hd.2
        exact ⟨k + 1, by omega, t, by rwa [run_succ hv], htb⟩

end Wait

/-! ### The obligations -/

/-- Settles O43, by induction on the cycles: each sends the head's word once, or none. -/
theorem busTraceFollowsSequence : Obligations.BusTraceFollowsSequence := by
  intro k s hd
  obtain ⟨t, ht⟩ := run_total k s
  exact ⟨t, ht, busTrace_run k hd ht⟩

/-- Settles O44: a cycle that makes no request is one of the list's own cycles, and at the end none is left. -/
theorem commandDurations : Obligations.CommandDurations := by
  intro s t u i k hb h htb hd hu hub
  obtain ⟨hgate, ht⟩ := exec_makes_busy hb h htb
  have hs := seqInv_of_accept hgate ht
  have hus : SeqInv u :=
    run_keeps (fun hv _ hstep => step_keeps_seqInv hv hstep) hs hd hu
  have hwork := workLeft_run k hs hd hu
  rw [hus.seq_of_idle hub] at hwork
  subst ht
  rw [accept_wcnt, accept_seq, workLeft_zero, prog_cycles, workLeft_nil, Nat.zero_add, Nat.add_comm (ownCycles s.par i)]
    at hwork
  cases i <;> exact hwork

/-- Settles O45: what is left to wait falls in every cycle and is at first within the list's bound. -/
theorem boundedWaitsEnd : Obligations.BoundedWaitsEnd := by
  intro s hs hp hd
  exact run_bounded (inv_iff.mp hs).1 hp (waitLeft_le _ _ _) hd

/-- Settles O39: INIT's list, its words and its cycles. -/
theorem initPerformed : Obligations.InitPerformed := by
  intro s hb hi
  have hgate : gate s .init = none := by simp [gate, gateReinit, hi]
  refine ⟨_, exec_accepted hb hgate, fun n hn ha => ?_⟩
  rw [cycle_idle_plain hb] at hn ha ⊢
  have hseq : (accept s (encode .init) (prog s.par s.data .init) (perCycle s)).seq = progInit s.par := rfl
  obtain ⟨u, hu, hub, huseq, hdone, hunits, hpar, hcur, hopr, htrace, hbusy⟩ :=
    display_performed (n := n) (seqInv_of_accept hgate rfl) (hseq ▸ displayList_progInit s.par) rfl
      (.inr (by rw [hseq, progInit]; simp))
      (by
        rw [hseq, busWords_progInit, delayCycles_progInit, oneCycleOps_progInit, hn, accept_par, perCycle_par,
          show initWords.length = 36 from rfl]
        omega) ha
  rw [hseq, busWords_progInit] at htrace
  exact ⟨u, hu, hub, huseq, hdone, hunits, hpar, hcur, hopr, htrace, hbusy⟩

/-- Settles O40: one byte's transfer for each command, its delay after it, with INIT_DONE set before. -/
theorem byteCommandsPerformed : Obligations.ByteCommandsPerformed := by
  intro s i b rs wait hb hi hcase
  obtain ⟨hneeds, hwords, hcycles⟩ : NeedsInit i ∧ busWords (prog s.par s.data i) = sixWords b rs ∧
      delayCycles (prog s.par s.data i) + oneCycleOps (prog s.par s.data i) = 2 * s.par.tEn.toNat + wait := by
    rw [prog_cycles]
    rcases hcase with ⟨rfl, rfl, rfl, rfl⟩ | ⟨rfl, rfl, rfl, rfl⟩ | ⟨rfl, rfl, rfl, rfl⟩ | ⟨rfl, hd, rfl, rfl, rfl⟩ |
      ⟨rfl, hd, rfl, rfl, rfl⟩
    · exact ⟨.inl rfl, by simp [prog, progClear, busWords_byteSeq, cClear], rfl⟩
    · exact ⟨.inr (.inl rfl), by simp [prog, progWrcmd, busWords_byteSeq], rfl⟩
    · exact ⟨.inr (.inr (.inl rfl)), by simp [prog, progWrdata, busWords_byteSeq], rfl⟩
    · exact ⟨.inr (.inr (.inr rfl)), by simp [prog, progPutc, busWords_byteSeq, hd, chNl, cLine2], rfl⟩
    · exact ⟨.inr (.inr (.inr rfl)), by simp [prog, progPutc, busWords_byteSeq, hd, chNl], rfl⟩
  have hgate : gate s i = none := by
    rcases hneeds with rfl | rfl | rfl | rfl <;> simp [gate, gateNotInit, hi]
  refine ⟨_, exec_accepted hb hgate, fun n hn ha => ?_⟩
  rw [cycle_idle_plain hb] at ha ⊢
  have hseq : (accept s (encode i) (prog s.par s.data i) (perCycle s)).seq = prog s.par s.data i := rfl
  obtain ⟨u, hu, hub, huseq, hdone, hunits, hpar, hcur, hopr, htrace, hbusy⟩ :=
    display_performed (n := n) (seqInv_of_accept hgate rfl)
      (hseq ▸ fun v hv => .inl (isTransfer_of_needsInit s.par hneeds v hv)) rfl (.inl hi)
      (by
        rw [hseq, hwords, hcycles, hn, show (sixWords b rs).length = 6 from rfl]
        omega) ha
  rw [hseq, hwords] at htrace
  exact ⟨u, hu, hub, huseq, hdone, hunits, hpar, hcur, hopr, htrace, hbusy⟩

end Sys2Proof.Proofs
end

section
/-! The encodings (30_encoding.md R53 to R62), the register views (10_state.md R16 to R26) and the ports (40_sequencer.md
R65): the lemmas, then the obligations about them. -/

namespace Sys2Proof.Proofs

open Sys2Proof.Machine Sys2Proof.Laws

/-! ### The command map (R53 to R55) -/

theorem encode_wellFormed (i : Instr) : (Cmd8.ofByte (encode i)).wellFormed = true ∧ i.wellFormed = true := by
  cases i with
  | init => exact EncodedByteWellFormed.init.2
  | clear => exact EncodedByteWellFormed.clear.2
  | wrcmd => exact EncodedByteWellFormed.wrcmd.2
  | wrdata => exact EncodedByteWellFormed.wrdata.2
  | putc => exact EncodedByteWellFormed.putc.2
  | sample => exact EncodedByteWellFormed.sample.2
  | latchclr => exact EncodedByteWellFormed.latchclr.2

/-- Fields in use are a command's. -/
theorem fields_of_wellFormed {f : Cmd8} (h : f.wellFormed = true) : ∃ i : Instr, i.fields = f := by
  obtain ⟨grp, op⟩ := f
  have hop : op = BitVec.ofNat 4 op.toNat := by simp
  simp only [Cmd8.wellFormed, Cmd8.groupInUse, Cmd8.opInUse, Bool.and_eq_true, Bool.or_eq_true, beq_iff_eq] at h
  obtain ⟨rfl | rfl, h⟩ := h
  · obtain ⟨hlo, hhi⟩ : 1 ≤ op.toNat ∧ op.toNat ≤ 5 := by simpa using h
    rw [hop]
    interval_cases op.toNat
    exacts [⟨.init, rfl⟩, ⟨.clear, rfl⟩, ⟨.wrcmd, rfl⟩, ⟨.wrdata, rfl⟩, ⟨.putc, rfl⟩]
  · obtain ⟨hlo, hhi⟩ : 1 ≤ op.toNat ∧ op.toNat ≤ 2 := by simpa using h
    rw [hop]
    interval_cases op.toNat
    exacts [⟨.sample, rfl⟩, ⟨.latchclr, rfl⟩]

/-- A byte is its group and its operation, side by side. -/
theorem ofByte_append (c : Byte) : (Cmd8.ofByte c).grp ++ (Cmd8.ofByte c).op = c := by
  apply BitVec.eq_of_getLsbD_eq
  intro i hi
  change (c.extractLsb' 4 4 ++ c.extractLsb' 0 4).getLsbD i = _
  simp only [BitVec.getLsbD_append]
  interval_cases i <;> simp

theorem decode_ok_iff_wellFormed (c : Byte) : (∃ i, decode c = .ok i) ↔ (Cmd8.ofByte c).wellFormed = true := by
  constructor
  · rintro ⟨i, hi⟩
    rw [← encode_of_decode hi]
    exact (encode_wellFormed i).1
  · intro h
    obtain ⟨i, hi⟩ := fields_of_wellFormed h
    have hc : encode i = c := by rw [encode, hi, ofByte_append]
    exact ⟨i, hc ▸ decode_encode i⟩

theorem decode_error_eq {c : Byte} {e : DecodeError} (h : decode c = .error e) : e = .illegalCommand c := by
  unfold decode at h
  split at h
  · cases h
  · cases h
    rfl

/-! ### The register views, bit by bit -/

/-- STATUS: four zero bits above its four flags. -/
theorem flags4_bits (b3 b2 b1 b0 : Bool) :
    let v : Byte := 0#4 ++ BitVec.ofBool b3 ++ BitVec.ofBool b2 ++ BitVec.ofBool b1 ++ BitVec.ofBool b0
    v.getLsbD 0 = b0 ∧ v.getLsbD 1 = b1 ∧ v.getLsbD 2 = b2 ∧ v.getLsbD 3 = b3 ∧ v.extractLsb' 4 4 = 0#4 := by
  cases b3 <;> cases b2 <;> cases b1 <;> cases b0 <;> decide

/-- CLASS: four codes side by side. -/
theorem codes_bits (c3 c2 c1 c0 : BitVec 2) :
    let v : Byte := c3 ++ c2 ++ c1 ++ c0
    v.extractLsb' 0 2 = c0 ∧ v.extractLsb' 2 2 = c1 ∧ v.extractLsb' 4 2 = c2 ∧ v.extractLsb' 6 2 = c3 := by
  refine ⟨?_, ?_, ?_, ?_⟩ <;>
    · apply BitVec.eq_of_getLsbD_eq
      intro i hi
      simp only [BitVec.getLsbD_extractLsb', BitVec.getLsbD_append]
      interval_cases i <;> simp

/-- EVENT: two zero bits above its six flags. -/
theorem flags6_bits (b5 b4 b3 b2 b1 b0 : Bool) :
    let v : Byte := 0#2 ++ BitVec.ofBool b5 ++ BitVec.ofBool b4 ++ BitVec.ofBool b3 ++ BitVec.ofBool b2 ++
      BitVec.ofBool b1 ++ BitVec.ofBool b0
    v.getLsbD 0 = b0 ∧ v.getLsbD 1 = b1 ∧ v.getLsbD 2 = b2 ∧ v.getLsbD 3 = b3 ∧ v.getLsbD 4 = b4 ∧ v.getLsbD 5 = b5 ∧
      v.extractLsb' 6 2 = 0#2 := by
  cases b5 <;> cases b4 <;> cases b3 <;> cases b2 <;> cases b1 <;> cases b0 <;> decide

section Views

variable (s : State)

theorem err_eq : s.err = decide (s.errcode ≠ 0x00#8) := by
  simp only [State.err, errNone, bne, beq_eq_decide, ne_eq, decide_not]

theorem statusByte_bits :
    s.statusByte.getLsbD 0 = s.busy ∧ s.statusByte.getLsbD 1 = s.initDone ∧
      s.statusByte.getLsbD 2 = decide (s.errcode ≠ 0x00#8) ∧ s.statusByte.getLsbD 3 = s.valid ∧
      s.statusByte.extractLsb' 4 4 = 0#4 := by
  rw [← err_eq]
  exact flags4_bits s.valid s.err s.initDone s.busy

theorem classByte_codes :
    s.classByte.extractLsb' 0 2 = s.xcls.code ∧ s.classByte.extractLsb' 2 2 = s.ycls.code ∧
      s.classByte.extractLsb' 4 2 = s.lx.code ∧ s.classByte.extractLsb' 6 2 = s.ly.code :=
  codes_bits s.ly.code s.lx.code s.ycls.code s.xcls.code

theorem eventByte_bits :
    s.eventByte.getLsbD 0 = s.evXPos ∧ s.eventByte.getLsbD 1 = s.evXNeg ∧ s.eventByte.getLsbD 2 = s.evYPos ∧
      s.eventByte.getLsbD 3 = s.evYNeg ∧ s.eventByte.getLsbD 4 = s.evBPress ∧ s.eventByte.getLsbD 5 = s.bprev ∧
      s.eventByte.extractLsb' 6 2 = 0#2 :=
  flags6_bits s.bprev s.evBPress s.evYNeg s.evYPos s.evXNeg s.evXPos

/-- The addresses above HOLD are reserved (R26). -/
theorem readReg_reserved {a : HostAddr} (h : 0x9#4 ≤ a) : s.readReg a = 0x00#8 := by
  have hne : ∀ b : HostAddr, b < 0x9#4 → a ≠ b := by
    rintro b hb rfl
    exact absurd h (BitVec.not_le.mpr hb)
  unfold State.readReg
  rw [if_neg (hne addrData (by decide)), if_neg (hne addrStatus (by decide)), if_neg (hne addrErrcode (by decide)),
    if_neg (hne addrXraw (by decide)), if_neg (hne addrYraw (by decide)), if_neg (hne addrClass (by decide)),
    if_neg (hne addrEvent (by decide)), if_neg (hne addrHold (by decide))]

end Views

/-! ### The ports -/

theorem busWord?_congr {s t : State} (hb : s.busy = t.busy) (hh : s.seq.head? = t.seq.head?) :
    s.busWord? = t.busWord? :=
  Option.ext fun w => by
    simp only [busWord?_eq_some_iff, ← List.head?_eq_some_iff, hb, hh]

theorem adcAxis?_congr {s t : State} (hb : s.busy = t.busy) (hh : s.seq.head? = t.seq.head?) :
    s.adcAxis? = t.adcAxis? :=
  Option.ext fun ch => by
    simp only [adcAxis?_eq_some_iff, ← List.head?_eq_some_iff, hb, hh]

/-! ### The obligations -/

/-- Settles O1: the bytes are the encodings, written out. -/
theorem commandBytesDecode : Obligations.CommandBytesDecode :=
  ⟨decode_encode .init, decode_encode .clear, decode_encode .wrcmd, decode_encode .wrdata, decode_encode .putc,
    decode_encode .sample, decode_encode .latchclr⟩

/-- Settles O2: an encoding is in use and decodes back, and a byte that decodes is its command's encoding. -/
theorem decodeEncodeAgree : Obligations.DecodeEncodeAgree :=
  ⟨fun i => ⟨(encode_wellFormed i).2, decode_encode i⟩, fun _ _ h => (encode_of_decode h).symm⟩

/-- Settles O3: fields in use are a command's, and a byte outside the map is rejected with itself. -/
theorem otherBytesIllegal : Obligations.OtherBytesIllegal := by
  refine ⟨decode_ok_iff_wellFormed, fun c hc => ?_, by decide +kernel⟩
  obtain ⟨e, he⟩ := decode_outside_map hc
  rw [he, decode_error_eq he]

/-- Settles O4: the formula, and its bits. -/
theorem busWordLayout : Obligations.BusWordLayout :=
  ⟨busWord_eq_formula, busWord_bits, by decide⟩

/-- Settles O14: each address is its view, and each view its bits. -/
theorem registerViews : Obligations.RegisterViews := by
  intro s
  obtain ⟨hbusy, hinit, herr, hvalid, hzero⟩ := statusByte_bits s
  obtain ⟨hxc, hyc, hxl, hyl⟩ := classByte_codes s
  obtain ⟨hxp, hxn, hyp, hyn, hpress, hlevel, hzero'⟩ := eventByte_bits s
  obtain ⟨hx, hy, hb, hzero''⟩ := holdByte_bits s
  exact ⟨rfl, rfl, rfl, rfl, rfl, fun a ha => readReg_reserved s ha, hbusy, hinit, herr, hvalid, hzero, hxc, hyc, hxl, hyl,
    hxp, hxn, hyp, hyn, hpress, hlevel, hzero', hx, hy, hb, hzero''⟩

/-- Settles O16: the codes as the table gives them, and none of the three latch values has the fourth. -/
theorem classAndLatchCodes : Obligations.ClassAndLatchCodes := by
  refine ⟨rfl, rfl, rfl, rfl, rfl, rfl, rfl, fun l => ?_⟩
  cases l <;> decide

/-- Settles O17: a request is the head of the list while BUSY = 1, and no output reads an input. -/
theorem outputsFollowState : Obligations.OutputsFollowState := by
  refine ⟨fun s a => ⟨btReq_iff, adcReq_iff, rfl, rfl⟩, fun s a w rest hb hseq => ?bw, fun s a ch rest hb hseq => ?adc,
    fun s a env => rfl, fun s t a hb hh hp => ?stable, fun s a => ?none⟩
  case bw =>
    have hw : s.busWord? = some w := busWord?_eq_some_iff.mpr ⟨hb, rest, hseq⟩
    have hno : s.adcAxis? = none := adcAxis?_of_head hseq (by simp)
    simp [State.outputs, State.btReq, State.btData, State.adcReq, hw, hno]
  case adc =>
    have hch : s.adcAxis? = some ch := adcAxis?_eq_some_iff.mpr ⟨hb, rest, hseq⟩
    have hno : s.busWord? = none := busWord?_of_head hseq (by simp)
    cases ch <;> simp [State.outputs, State.btReq, State.adcCh, State.adcReq, Axis.channel, hch, hno]
  case stable =>
    simp only [State.outputs, State.btReq, State.btData, State.adcReq, State.adcCh, State.btAddr, busWord?_congr hb hh,
      adcAxis?_congr hb hh, hp, and_self]
  case none =>
    refine ⟨fun h => ?_, fun h => ?_⟩
    · have hno : s.busWord? = none := by simpa [State.outputs, State.btReq] using h
      simp [State.outputs, State.btData, hno]
    · have hno : s.adcAxis? = none := by simpa [State.outputs, State.adcReq] using h
      simp [State.outputs, State.adcCh, hno]

/-- Settles O59: the expansions are the tables', and BUSY is bit 0 of STATUS. -/
theorem hostNotation : Obligations.HostNotation := by
  refine ⟨fun d => ⟨rfl, rfl, rfl, rfl, rfl, rfl, rfl⟩, fun c text => ⟨rfl, rfl, rfl, rfl⟩, rfl, rfl, rfl, rfl,
    fun i a v => ⟨hostAccess_withAccess i _, hostAccess_withAccess i _, hostAccess_withAccess i _⟩, fun s rest => ⟨rfl, ?_⟩⟩
  obtain ⟨hbusy, _⟩ := statusByte_bits s
  rw [readReg_status, hostAdvance, hbusy]

end Sys2Proof.Proofs
end

section
/-! What the sequencer neither reads nor writes: DATA, ERRCODE, CUR and OPR (20_memory.md R51; 10_state.md R31). A cycle
and a run commute with setting them. Then the obligations that compare two machines. -/

namespace Sys2Proof.Proofs

open Sys2Proof.Machine Sys2Proof.Laws

/-- `s` with DATA, ERRCODE, CUR and OPR set. -/
def relabel (s : State) (d e c o : Byte) : State :=
  { s with data := d, errcode := e, cur := c, opr := o }

section Relabel

variable (s acc : State) (d e c o : Byte)

@[simp] theorem relabel_busy : (relabel s d e c o).busy = s.busy := rfl
@[simp] theorem relabel_seq : (relabel s d e c o).seq = s.seq := rfl

theorem uopVerdict_relabel (u : MicroOp) : uopVerdict (relabel s d e c o) u = uopVerdict s u := by
  cases u <;> rfl

theorem uopEffect_relabel (u : MicroOp) :
    uopEffect (relabel s d e c o) u (relabel acc d e c o) = relabel (uopEffect s u acc) d e c o := by
  rcases u with _ | _ | ⟨_ | _⟩ | _ | _ | _ | _ <;> rfl

theorem seqStep_relabel : seqStep (relabel s d e c o) (relabel acc d e c o) = relabel (seqStep s acc) d e c o := by
  cases hb : s.busy with
  | false => simp [seqStep, hb]
  | true =>
    cases hseq : s.seq with
    | nil => simp [seqStep, hb, hseq, popSeq, relabel]
    | cons u rest =>
      cases hv : uopVerdict s u with
      | stay => simp only [seqStep, relabel_busy, relabel_seq, hb, hseq, uopVerdict_relabel, hv]; rfl
      | pop =>
        simp only [seqStep, relabel_busy, relabel_seq, hb, hseq, uopVerdict_relabel, hv, uopEffect_relabel]; rfl
      | abort x => simp only [seqStep, relabel_busy, relabel_seq, hb, hseq, uopVerdict_relabel, hv]; rfl

theorem seqRaise_relabel : seqRaise (relabel s d e c o) = seqRaise s := by
  simp only [seqRaise, relabel_busy, relabel_seq, uopVerdict_relabel]

/-- A cycle of the relabelled machine: ERRCODE is settled from the code set, everything else as without it. -/
theorem cycle_relabel (b : Bool) (r : Option ErrCode) :
    cycle (relabel s d e c o) b r = relabel (cycle s b r) d (settleErr e b (seqRaise s) r) c o := by
  have hq : seqStep (relabel s d e c o) (perCycle (relabel s d e c o)) = relabel (seqStep s (perCycle s)) d e c o :=
    seqStep_relabel s (perCycle s) d e c o
  rw [cycle, hq, seqRaise_relabel]
  rfl

end Relabel

/-! ### Two machines that differ only in DATA, while a command runs -/

/-- `s` with DATA set. -/
def withData (s : State) (d : Byte) : State :=
  { s with data := d }

section WithData

variable (s : State) (d : Byte)

theorem cycle_withData (b : Bool) (r : Option ErrCode) :
    cycle (withData s d) b r = withData (cycle s b r) d := by
  calc cycle (withData s d) b r
    _ = relabel (cycle s b r) d (cycle s b r).errcode s.cur s.opr := cycle_relabel s d s.errcode s.cur s.opr b r
    _ = withData (cycle s b r) d := by rw [← cycle_cur s b r, ← cycle_opr s b r]; rfl

theorem registerCycle_withData (a : HostAccess) :
    ∃ d', registerCycle (withData s d) a = withData (registerCycle s a) d' := by
  cases a with
  | idle => exact ⟨d, cycle_withData s d _ _⟩
  | read a => exact ⟨d, cycle_withData s d _ _⟩
  | write a v =>
    simp only [registerCycle, cycle_withData]
    split_ifs
    · exact ⟨v, rfl⟩
    · exact ⟨d, rfl⟩
    · exact ⟨d, rfl⟩

/-- While a command runs no access captures DATA: the cycle does the same whatever it holds. -/
theorem step_withData {s t : State} (hb : s.busy = true) (h : step s = .next t) :
    ∃ d', step (withData s d) = .next (withData t d') := by
  have hfetch : fetch (withData s d) = fetch s := rfl
  have hbusy : ∀ c g g' q q', commandCycle (withData s d) c g q = withData (commandCycle s c g' q') d := by
    intro c g g' q q'
    rw [commandCycle_busy (s := withData s d) hb, commandCycle_busy hb, cycle_withData]
  unfold step at h ⊢
  rw [hfetch]
  cases hf : fetch s with
  | reset =>
    rw [hf] at h
    cases h
    exact ⟨_, rfl⟩
  | command i =>
    simp only [hf, exec_eq] at h ⊢
    cases h
    exact ⟨d, by rw [hbusy _ _ (gate s i) _ (prog s.par s.data i)]⟩
  | illegal c =>
    simp only [hf, illegalCycle] at h ⊢
    cases h
    exact ⟨d, by rw [hbusy _ _ (some .eIllegalCmd) _ []]⟩
  | other a =>
    simp only [hf] at h ⊢
    cases h
    obtain ⟨d', hd'⟩ := registerCycle_withData s d a
    exact ⟨d', by rw [hd']⟩

end WithData

/-! ### Two machines that differ only in CUR and OPR -/

/-- `s` with CUR and OPR set. -/
def withCmd (s : State) (c o : Byte) : State :=
  { s with cur := c, opr := o }

section WithCmd

variable (s : State) (c o : Byte)

theorem cycle_withCmd (b : Bool) (r : Option ErrCode) :
    cycle (withCmd s c o) b r = withCmd (cycle s b r) c o := by
  calc cycle (withCmd s c o) b r
    _ = relabel (cycle s b r) s.data (cycle s b r).errcode c o := cycle_relabel s s.data s.errcode c o b r
    _ = withCmd (cycle s b r) c o := by rw [← cycle_data s b r]; rfl

theorem registerCycle_withCmd (a : HostAccess) :
    registerCycle (withCmd s c o) a = withCmd (registerCycle s a) c o := by
  cases a with
  | idle => exact cycle_withCmd s c o _ _
  | read a => exact cycle_withCmd s c o _ _
  | write a v =>
    simp only [registerCycle, cycle_withCmd]
    split_ifs <;> rfl

/-- Acceptance overwrites CUR and OPR, and a refusal leaves them. -/
theorem commandCycle_withCmd (k : Byte) (g : Option ErrCode) (q : List MicroOp) :
    ∃ c' o', commandCycle (withCmd s c o) k g q = withCmd (commandCycle s k g q) c' o' := by
  cases hb : s.busy with
  | true =>
    exact ⟨c, o, by rw [commandCycle_busy (s := withCmd s c o) hb, commandCycle_busy hb, cycle_withCmd]⟩
  | false =>
    cases g with
    | some e =>
      exact ⟨c, o, by
        rw [commandCycle_refused (s := withCmd s c o) hb, commandCycle_refused hb, cycle_withCmd]⟩
    | none =>
      exact ⟨k, s.data, by
        rw [commandCycle_accepted (s := withCmd s c o) hb, commandCycle_accepted hb, cycle_withCmd]; rfl⟩

theorem gate_withCmd (i : Instr) : gate (withCmd s c o) i = gate s i := by
  cases i <;> rfl

theorem step_withCmd {s t : State} (h : step s = .next t) :
    ∃ c' o', step (withCmd s c o) = .next (withCmd t c' o') := by
  have hfetch : fetch (withCmd s c o) = fetch s := rfl
  unfold step at h ⊢
  rw [hfetch]
  cases hf : fetch s with
  | reset =>
    rw [hf] at h
    cases h
    exact ⟨_, _, rfl⟩
  | command i =>
    simp only [hf, exec_eq, gate_withCmd] at h ⊢
    cases h
    obtain ⟨c', o', hc⟩ := commandCycle_withCmd s c o (encode i) (gate s i) (prog s.par s.data i)
    exact ⟨c', o', congrArg Host.Outcome.next hc⟩
  | illegal k =>
    simp only [hf, illegalCycle] at h ⊢
    cases h
    obtain ⟨c', o', hc⟩ := commandCycle_withCmd s c o k (some .eIllegalCmd) []
    exact ⟨c', o', by rw [hc]⟩
  | other a =>
    simp only [hf] at h ⊢
    cases h
    exact ⟨c, o, by rw [registerCycle_withCmd]⟩

end WithCmd

/-! ### Runs -/

theorem run_withData (k : Nat) {s t : State} (d : Byte) (hd : during k State.busy s = true) (h : run k s = .next t) :
    (∃ d', run k (withData s d) = .next (withData t d')) ∧ busTrace k (withData s d) = busTrace k s := by
  induction k generalizing s d with
  | zero =>
    cases h
    exact ⟨⟨d, rfl⟩, rfl⟩
  | succ k ih =>
    obtain ⟨v, hv⟩ := step_total s
    rw [during_succ hv, Bool.and_eq_true] at hd
    rw [run_succ hv] at h
    obtain ⟨d', hv'⟩ := step_withData d hd.1 hv
    obtain ⟨hrun, htrace⟩ := ih d' hd.2 h
    rw [run_succ hv', busTrace_succ hv', busTrace_succ hv, htrace]
    exact ⟨hrun, rfl⟩

theorem run_withCmd (k : Nat) {s t : State} (c o : Byte) (h : run k s = .next t) :
    (∃ c' o', run k (withCmd s c o) = .next (withCmd t c' o')) ∧ busTrace k (withCmd s c o) = busTrace k s := by
  induction k generalizing s c o with
  | zero =>
    cases h
    exact ⟨⟨c, o, rfl⟩, rfl⟩
  | succ k ih =>
    obtain ⟨v, hv⟩ := step_total s
    rw [run_succ hv] at h
    obtain ⟨c', o', hv'⟩ := step_withCmd c o hv
    obtain ⟨hrun, htrace⟩ := ih c' o' h
    rw [run_succ hv', busTrace_succ hv', busTrace_succ hv, htrace]
    exact ⟨hrun, rfl⟩

/-! ### The obligations -/

/-- Settles O57: each cycle starts busy, and what it does and sends does not read DATA. -/
theorem dataDoesNotAlterRunningCommand : Obligations.DataDoesNotAlterRunningCommand :=
  fun k _ _ d hd h => run_withData k d hd h

/-- Settles O58: acceptance overwrites CUR and OPR, and neither the bus nor a register view reads them. -/
theorem curAndOprInvisible : Obligations.CurAndOprInvisible := by
  intro k s t c o h
  obtain ⟨⟨c', o', hrun⟩, htrace⟩ := run_withCmd k c o h
  exact ⟨withCmd t c' o', hrun, rfl, htrace, fun a => rfl⟩

end Sys2Proof.Proofs
end

section
/-! A cycle by its host access (40_sequencer.md R63, R66, R78; 10_state.md R18, R20, R26): the obligations about commands
placed and accepted, idle cycles, and the host's reads and writes. -/

namespace Sys2Proof.Proofs

open Sys2Proof.Machine Sys2Proof.Laws

/-! ### Commands -/

theorem step_command {s : State} {c : Byte} {i : Instr} (hr : s.inputs.rst = false)
    (ha : hostAccess s.inputs = .write 0x0#4 c) (hd : decode c = .ok i) : step s = exec i s := by
  rcases step_cases s with ⟨hrst, _⟩ | ⟨c', j, _, ha', hd', hs⟩ | ⟨c', e, _, ha', hd', _⟩ | ⟨_, hno, _⟩
  · rw [hr] at hrst
    cases hrst
  · cases ha.symm.trans ha'
    cases hd.symm.trans hd'
    exact hs
  · cases ha.symm.trans ha'
    cases hd.symm.trans hd'
  · exact absurd ha (hno c)

theorem commandByte_toNat (c : Byte) : commandByte 8 c.toNat = c := by
  rw [commandByte, Nat.mod_eq_of_lt c.isLt, BitVec.ofNat_toNat, BitVec.setWidth_eq]

/-- A placed byte is what the host writes to CMD in the coming cycle. -/
theorem offerCommand_inputs (s : State) (c : Byte) :
    (offerCommand s c).inputs.rst = false ∧ hostAccess (offerCommand s c).inputs = .write 0x0#4 c := by
  unfold offerCommand
  cases s.env with
  | nil => exact ⟨rfl, rfl⟩
  | cons i rest => exact ⟨rfl, rfl⟩

/-- An accepted command's cycle, with BUSY = 0 before it: the per-cycle updates and acceptance's writes. -/
theorem exec_accepted_idle {s : State} {i : Instr} (hb : s.busy = false) (hg : gate s i = none) :
    exec i s = .next (accept s (encode i) (prog s.par s.data i) (perCycle s)) := by
  rw [exec_accepted hb hg, cycle_idle_plain hb]

/-! ### Host writes to DATA and ERRCODE -/

theorem registerCycle_write_data (s : State) (v : Byte) :
    registerCycle s (.write 0x1#4 v) = withData (cycle s false none) v := rfl

theorem registerCycle_write_errcode (s : State) (v : Byte) : registerCycle s (.write 0x3#4 v) = cycle s true none := rfl

/-- A clear is the cycle without it from the state whose ERRCODE is 0 already. -/
theorem cycle_clear (s : State) (r : Option ErrCode) :
    cycle { s with errcode := 0x00#8 } false r = cycle s true r := by
  calc cycle { s with errcode := 0x00#8 } false r
    _ = relabel (cycle s false r) s.data (settleErr 0x00#8 false (seqRaise s) r) s.cur s.opr :=
      cycle_relabel s s.data 0x00#8 s.cur s.opr false r
    _ = cycle s true r := by rw [← cycle_data s false r, ← cycle_cur s false r, ← cycle_opr s false r]; rfl

/-! ### The obligations -/

/-- Settles O5: of the cases of a step only the command's has this access and this decoding. -/
theorem stepRunsDecodedCommand : Obligations.StepRunsDecodedCommand :=
  fun _ _ _ hr ha hd => step_command hr ha hd

/-- Settles O6: the placed byte is the encoding, which decodes to its command. -/
theorem placedCommandRuns : Obligations.PlacedCommandRuns := by
  intro s i
  refine ⟨by rw [decodeTableWord, commandByte_toNat, decode_encode], ?_⟩
  rw [State.withFetchWord, commandByte_toNat]
  obtain ⟨hr, ha⟩ := offerCommand_inputs s (encode i)
  exact step_command hr ha (decode_encode i)

/-- Settles O7: each case of a step, and each command, answers a next state. -/
theorem everyCycleHasNext : Obligations.EveryCycleHasNext :=
  ⟨step_total, fun i s => ⟨_, exec_eq i s⟩⟩

/-- Settles O9: a quiet cycle is `cycle`, which is the per-cycle updates while BUSY = 0. -/
theorem idleCycle : Obligations.IdleCycle :=
  ⟨fun s hq hb => by rw [step_quiet hq, cycle_idle_plain hb], fun _ => rfl⟩

/-- Settles O11: each such access gives the cycle without one. -/
theorem readsAndIgnoredWritesChangeNothing : Obligations.ReadsAndIgnoredWritesChangeNothing := by
  intro s i rest a v hr
  refine ⟨?_, fun h0 h1 h3 => step_write_ignored s rest v hr h0 h1 h3⟩
  rw [step_placed hr (by simp), step_placed_idle hr, registerCycle_read, cycle_access]

/-- Settles O12: the cycle keeps DATA, and the host's write sets it beside. -/
theorem dataWriteSetsData : Obligations.DataWriteSetsData := by
  refine ⟨fun s i rest v hr => ⟨_, step_placed_idle hr, cycle_data _ _ _, ?_⟩, fun s => rfl⟩
  rw [step_placed hr (by simp), registerCycle_write_data, cycle_access]
  rfl

/-- Settles O13: the clear comes before the sequencer's error, and while idle there is none. -/
theorem errcodeWriteClears : Obligations.ErrcodeWriteClears := by
  have hwrite : ∀ (s : State) (i : Inputs) (rest : List Inputs) (v : Byte), i.rst = false →
      step (s.withEnv (withAccess i (.write 0x3#4 v) :: rest)) =
        .next (cycle (s.withEnv (withAccess i .idle :: rest)) true none) := by
    intro s i rest v hr
    rw [step_placed hr (by simp), registerCycle_write_errcode, cycle_access]
  refine ⟨fun s i rest v hr => ⟨_, step_placed_idle hr, ?_⟩, fun s i rest v hr hb => ⟨_, hwrite s i rest v hr, ?_⟩⟩
  · rw [hwrite s i rest v hr]
    exact congrArg Host.Outcome.next (cycle_clear (s.withEnv (withAccess i .idle :: rest)) none).symm
  · have herr : (cycle (s.withEnv (withAccess i .idle :: rest)) true none).errcode = 0x00#8 := by
      rw [cycle_idle (s := s.withEnv (withAccess i .idle :: rest)) hb]
      rfl
    obtain ⟨_, _, hbit, _⟩ := statusByte_bits (cycle (s.withEnv (withAccess i .idle :: rest)) true none)
    exact ⟨herr, by rw [hbit, herr]; rfl⟩

/-- Settles O22: INIT's gate is open with INIT_DONE = 0. -/
theorem initAccepted : Obligations.InitAccepted := by
  intro s hb hi
  rw [exec_accepted_idle hb (gate_open (fun _ => hi) fun h => absurd h (by decide))]
  rfl

/-- Settles O23: the gates are open with INIT_DONE = 1, and the lists are R67's. -/
theorem displayCommandsAccepted : Obligations.DisplayCommandsAccepted := by
  intro s hb hi
  have hopen : ∀ i, encode i ≠ 0x01#8 → gate s i = none := fun i hne => gate_open (fun h => absurd h hne) (fun _ => hi)
  refine ⟨?_, ?_, ?_, ?_⟩ <;> rw [exec_accepted_idle hb (hopen _ (by decide))] <;> rfl

/-- Settles O24: SAMPLE and LATCHCLR have no gate. -/
theorem inputCommandsAccepted : Obligations.InputCommandsAccepted := by
  intro s hb
  refine ⟨?_, ?_⟩ <;> rw [exec_accepted_idle hb rfl] <;> rfl

/-- Settles O53: SYNC1 of the first cycle is what the second moves on. -/
theorem synchronizerDelay : Obligations.SynchronizerDelay := by
  intro s t u hrs hrt hs ht
  obtain ⟨hsync1, _⟩ := perCycleUpdates s t hrs hs
  obtain ⟨hsync1', hsync2', _⟩ := perCycleUpdates t u hrt ht
  exact ⟨hsync2'.trans hsync1, hsync1'⟩

end Sys2Proof.Proofs
end

section
/-! One cycle of each micro-op (40_sequencer.md R69 to R73; 42_input.md R97, R98), the waits that no response ends
(R70; 60_exceptions.md R107, R108), and the two input commands as a whole: the lemmas, then the obligations. -/

namespace Sys2Proof.Proofs

open Sys2Proof.Machine Sys2Proof.Laws

/-! ### The cycle by the micro-op's outcome -/

section Cycle

variable {s : State} {u : MicroOp} {rest : List MicroOp} (b : Bool) (r : Option ErrCode)

theorem cycle_of_stay (hb : s.busy = true) (hseq : s.seq = u :: rest) (hv : uopVerdict s u = .stay) :
    cycle s b r = { perCycle s with wcnt := satInc s.wcnt, errcode := settleErr s.errcode b none r } := by
  simp only [cycle, seqStep, seqRaise, hb, hseq, hv, if_true]

theorem cycle_of_pop (hb : s.busy = true) (hseq : s.seq = u :: rest) (hv : uopVerdict s u = .pop) :
    cycle s b r =
      { popSeq rest (uopEffect s u (perCycle s)) with errcode := settleErr s.errcode b none r } := by
  simp only [cycle, seqStep, seqRaise, hb, hseq, hv, if_true]

theorem cycle_of_abort {x : ErrCode} (hb : s.busy = true) (hseq : s.seq = u :: rest)
    (hv : uopVerdict s u = .abort x) :
    cycle s b r = { abortSeq x (perCycle s) with errcode := settleErr s.errcode b (some x) r } := by
  simp only [cycle, seqStep, seqRaise, hb, hseq, hv, if_true]

end Cycle

theorem popSeq_eq (rest : List MicroOp) (acc : State) :
    popSeq rest acc = { acc with seq := rest, wcnt := 0#24, busy := decide (rest ≠ []) } := by
  cases rest <;> rfl

theorem satInc_eq (w : Count) : satInc w = BitVec.ofNat 24 (min (w.toNat + 1) (2 ^ 24 - 1)) := by
  apply BitVec.eq_of_toNat_eq
  rw [satInc_toNat, BitVec.toNat_ofNat, Nat.mod_eq_of_lt (by omega)]

section Quiet

variable {s : State} {u : MicroOp} {rest : List MicroOp}

theorem step_stays (hq : s.hostQuiet = true) (hb : s.busy = true) (hseq : s.seq = u :: rest)
    (hv : uopVerdict s u = .stay) : step s = .next { perCycle s with wcnt := satInc s.wcnt } := by
  rw [step_quiet hq, cycle_of_stay false none hb hseq hv]
  rfl

/-- The next state where `u` ends and `rest` remains. -/
def popped (s : State) (u : MicroOp) (rest : List MicroOp) : State :=
  { uopEffect s u (perCycle s) with seq := rest, wcnt := 0#24, busy := decide (rest ≠ []) }

theorem step_pops (hq : s.hostQuiet = true) (hb : s.busy = true) (hseq : s.seq = u :: rest)
    (hv : uopVerdict s u = .pop) : step s = .next (popped s u rest) := by
  have herr : settleErr s.errcode false none none = (uopEffect s u (perCycle s)).errcode :=
    ((uopEffect_errcode s (perCycle s) u).trans rfl).symm
  rw [step_quiet hq, cycle_of_pop false none hb hseq hv, popSeq_eq, herr, popped]

theorem step_aborts {x : ErrCode} (hq : s.hostQuiet = true) (hb : s.busy = true) (hseq : s.seq = u :: rest)
    (hv : uopVerdict s u = .abort x) :
    step s = .next
      { perCycle s with
        seq := [], wcnt := 0#24, busy := false, initDone := s.initDone && !x.busFailure,
        errcode := if s.errcode = 0x00#8 then x.code else s.errcode } := by
  rw [step_quiet hq, cycle_of_abort false none hb hseq hv]
  rfl

end Quiet

/-! ### Waits without a response -/

section Waits

variable {s t : State} {u : MicroOp} {rest : List MicroOp} {e : ErrCode}

/-- Whatever the host does, an unanswered wait within its bound goes on. -/
theorem step_wait (hr : s.inputs.rst = false) (hb : s.busy = true) (hseq : s.seq = u :: rest)
    (hv : uopVerdict s u = .stay) (h : step s = .next t) :
    t.busy = true ∧ t.seq = u :: rest ∧ t.wcnt = satInc s.wcnt := by
  obtain ⟨d, x, hs⟩ := step_busy hr hb
  rw [cycle_of_stay false none hb hseq hv] at hs
  cases hs.symm.trans h
  exact ⟨hb, hseq, rfl⟩

/-- Without a bound the wait is the same after any number of cycles, but for its count. -/
theorem run_wait {p : State → Bool} (hp : ∀ v, p v = true → v.inputs.rst = false ∧ unanswered v u = some e) (k : Nat)
    (hpar : s.par.waitTimeout = 0#24) (hb : s.busy = true) (hseq : s.seq = u :: rest) (hd : during k p s = true) :
    ∃ t, run k s = .next t ∧ t.busy = true ∧ t.seq = u :: rest ∧
      t.wcnt.toNat = min (s.wcnt.toNat + k) (2 ^ 24 - 1) := by
  induction k generalizing s with
  | zero =>
    have hw := s.wcnt.isLt
    exact ⟨s, rfl, hb, hseq, by omega⟩
  | succ k ih =>
    obtain ⟨v, hv⟩ := step_total s
    rw [during_succ hv, Bool.and_eq_true] at hd
    obtain ⟨hr, hun⟩ := hp s hd.1
    have hstay : uopVerdict s u = .stay :=
      uopVerdict_eq_stay_iff.mpr (.inl ⟨⟨e, hun⟩, not_waitExpires_iff.mpr (.inl hpar)⟩)
    obtain ⟨hvb, hvseq, hvw⟩ := step_wait hr hb hseq hstay hv
    obtain ⟨t, ht, htb, htseq, htw⟩ := ih (by rwa [step_par hv]) hvb hvseq hd.2
    refine ⟨t, by rwa [run_succ hv], htb, htseq, ?_⟩
    rw [htw, hvw, satInc_toNat]
    omega

/-- `v` is `k` cycles into the wait of `u` that began in `s`: nothing else has changed but the free-running elements. -/
structure Waiting (s : State) (u : MicroOp) (rest : List MicroOp) (k : Nat) (v : State) : Prop where
  busy : v.busy = true
  seq : v.seq = u :: rest
  count : v.wcnt.toNat = k
  errcode : v.errcode = s.errcode
  initDone : v.initDone = s.initDone
  data : v.data = s.data
  units : inputUnits v = inputUnits s
  par : v.par = s.par

variable {p : State → Bool} {k : Nat}

theorem run_waiting (hp : ∀ v, p v = true → v.hostQuiet = true ∧ unanswered v u = some e) (hs : Waiting s u rest 0 s)
    (hd : during s.par.waitTimeout.toNat p s = true) (hk : k < s.par.waitTimeout.toNat) :
    ∃ v, run k s = .next v ∧ Waiting s u rest k v := by
  induction k with
  | zero => exact ⟨s, rfl, hs⟩
  | succ k ih =>
    obtain ⟨v, hv, hw⟩ := ih (Nat.lt_of_succ_lt hk)
    obtain ⟨hq, hun⟩ := hp v (during_run hd (Nat.lt_of_succ_lt hk) hv)
    have hin : ¬ v.waitExpires := not_waitExpires_iff.mpr (.inr (by rw [hw.count, hw.par]; exact hk))
    have hstay : uopVerdict v u = .stay := uopVerdict_eq_stay_iff.mpr (.inl ⟨⟨e, hun⟩, hin⟩)
    rw [run_succ_last hv]
    refine ⟨_, step_stays hq hw.busy hw.seq hstay, hw.busy, hw.seq, ?_, hw.errcode, hw.initDone, hw.data, hw.units, hw.par⟩
    have hbound := s.par.waitTimeout.isLt
    change (satInc v.wcnt).toNat = k + 1
    rw [satInc_toNat, hw.count]
    omega

theorem run_expires (hp : ∀ v, p v = true → v.hostQuiet = true ∧ unanswered v u = some e) (hs : Waiting s u rest 0 s)
    (hd : during s.par.waitTimeout.toNat p s = true) (hbound : s.par.waitTimeout ≠ 0#24) :
    ∃ t, run s.par.waitTimeout.toNat s = .next t ∧ t.busy = false ∧ t.seq = [] ∧ t.wcnt = 0#24 ∧
      t.initDone = (s.initDone && !e.busFailure) ∧ t.errcode = (if s.errcode = 0x00#8 then e.code else s.errcode) ∧
      t.data = s.data ∧ sameInputUnits s t := by
  obtain ⟨k, hk⟩ : ∃ k, s.par.waitTimeout.toNat = k + 1 := Nat.exists_eq_succ_of_ne_zero (toNat_pos hbound).ne'
  have hlt : k < s.par.waitTimeout.toNat := by omega
  obtain ⟨v, hv, hw⟩ := run_waiting hp hs hd hlt
  obtain ⟨hq, hun⟩ := hp v (during_run hd hlt hv)
  have hout : v.waitExpires := by
    rw [State.waitExpires, hw.par, hw.count]
    exact ⟨hbound, hk.le⟩
  have habort : uopVerdict v u = .abort e := uopVerdict_eq_abort_iff.mpr (.inr ⟨hun, hout⟩)
  rw [hk, run_succ_last hv, ← hw.errcode, ← hw.initDone]
  exact ⟨_, step_aborts hq hw.busy hw.seq habort, rfl, rfl, rfl, rfl, rfl, hw.data, sameInputUnits_iff.mpr hw.units⟩

end Waits

/-! ### A cycle in which the sequencer aborts, against the host's write -/

section Abort

variable {s : State} {u : MicroOp} {uops : List MicroOp} {i : Inputs} {code : Byte}

/-- A failure aborts with the error of its code, whatever access stands on the host port. -/
theorem failsWith_aborts (h : s.failsWith u i code) (a : HostAccess) (rest : List Inputs) :
    ∃ x : ErrCode, uopVerdict (s.withEnv (withAccess i a :: rest)) u = .abort x ∧ x.code = code ∧
      x.busFailure = decide (code ≠ 0x07#8) := by
  rcases h with ⟨w, rfl, hd, hok, rfl⟩ | ⟨w, rfl, hd, hx, rfl⟩ | ⟨ch, rfl, hd, hx, rfl⟩
  · exact ⟨.eBusNack, uopVerdict_eq_abort_iff.mpr (.inl ⟨w, rfl, by simpa using hd, by simpa using hok, rfl⟩), rfl,
      by decide⟩
  · exact ⟨.eBusTimeout, uopVerdict_eq_abort_iff.mpr (.inr ⟨unanswered_bw_iff.mpr ⟨by simpa using hd, rfl⟩, hx⟩), rfl,
      by decide⟩
  · exact ⟨.eAdcTimeout, uopVerdict_eq_abort_iff.mpr (.inr ⟨unanswered_adc_iff.mpr ⟨by simpa using hd, rfl⟩, hx⟩), rfl,
      by decide⟩

/-- After a sequencer's error no refusal of the same cycle is recorded. -/
theorem settleErr_sequencer (code : Byte) (b : Bool) (x : ErrCode) (r : Option ErrCode) :
    settleErr code b (some x) r = if b = true ∨ code = 0x00#8 then x.code else code := by
  have hx := errCode_code_ne_zero x
  have hkeep : ∀ c : Byte, c ≠ 0x00#8 → raise c r = c := by
    intro c hc
    rcases raise_cases c r with h | ⟨h, _⟩
    · exact h
    · exact absurd h hc
  cases b with
  | true => simp [settleErr, raise_some, errNone, hkeep x.code hx]
  | false =>
    by_cases hc : code = 0x00#8
    · simp [settleErr, raise_some, hc, hkeep x.code hx]
    · simp [settleErr, raise_some, hc, hkeep code hc]

theorem cycle_of_failure (hb : s.busy = true) (hseq : s.seq = u :: uops) (h : s.failsWith u i code) (a : HostAccess)
    (rest : List Inputs) (b : Bool) (r : Option ErrCode) :
    ∃ t, cycle (s.withEnv (withAccess i a :: rest)) b r = t ∧
      t.errcode = (if b = true ∨ s.errcode = 0x00#8 then code else s.errcode) ∧ t.busy = false ∧ t.seq = [] ∧
      t.wcnt = 0#24 ∧ t.initDone = if code = 0x07#8 then s.initDone else false := by
  obtain ⟨x, hv, rfl, hbus⟩ := failsWith_aborts h a rest
  refine ⟨_, cycle_of_abort (s := s.withEnv (withAccess i a :: rest)) b r hb hseq hv, settleErr_sequencer s.errcode b x r,
    rfl, rfl, rfl, ?_⟩
  change (s.initDone && !x.busFailure) = _
  rw [hbus]
  by_cases h7 : x.code = 0x07#8 <;> simp [h7]

end Abort

/-! ### The commit's writes as the rule lists them -/

theorem axisRule_cls (v : Byte) (l : LatchVal) (h : Count) : (axisRule v l h).cls = cls v := by
  unfold axisRule
  split
  · rfl
  · split <;> split <;> rfl

theorem fireButton_eq (bprev bs : Bool) (hb : Count) :
    fireButton bprev bs hb = decide (bprev = true ∧ bs = false ∧ hb = 0#24) := by
  rw [Bool.eq_iff_iff, decide_eq_true_iff]
  simp [fireButton, press, and_assoc]

/-! ### The obligations about one cycle -/

/-- Settles O28: the four outcomes of a bus word. -/
theorem busWordCycle : Obligations.BusWordCycle := by
  intro s w rest hq hb hseq
  by_cases hd : s.inputs.btDone = true
  · rw [if_pos hd]
    by_cases hok : s.inputs.btOk = true
    · rw [if_pos hok]
      exact step_pops hq hb hseq (uopVerdict_eq_pop_iff.mpr ⟨hd, hok⟩)
    · have hv : uopVerdict s (.bw w) = .abort .eBusNack :=
        uopVerdict_eq_abort_iff.mpr (.inl ⟨w, rfl, hd, Bool.eq_false_iff.mpr hok, rfl⟩)
      rw [if_neg hok, step_aborts hq hb hseq hv]
      simp only [ErrCode.busFailure, Bool.not_true, Bool.and_false, ErrCode.code]
  · have hun : unanswered s (.bw w) = some .eBusTimeout := unanswered_bw_iff.mpr ⟨Bool.eq_false_iff.mpr hd, rfl⟩
    rw [if_neg hd]
    by_cases hx : s.par.waitTimeout ≠ 0#24 ∧ s.wcnt.toNat + 1 ≥ s.par.waitTimeout.toNat
    · rw [if_pos hx, step_aborts hq hb hseq (uopVerdict_eq_abort_iff.mpr (.inr ⟨hun, hx⟩))]
      simp only [ErrCode.busFailure, Bool.not_true, Bool.and_false, ErrCode.code]
    · rw [if_neg hx, step_stays hq hb hseq (uopVerdict_eq_stay_iff.mpr (.inl ⟨⟨_, hun⟩, hx⟩)), satInc_eq]

/-- Settles O29: the outcomes of a conversion, on each channel. -/
theorem adcCycle : Obligations.AdcCycle := by
  intro s ch rest hq hb hseq
  by_cases hd : s.inputs.adcDone = true
  · rw [if_pos hd, step_pops hq hb hseq (uopVerdict_eq_pop_iff.mpr hd)]
    cases ch <;> rfl
  · have hun : unanswered s (.adc ch) = some .eAdcTimeout := unanswered_adc_iff.mpr ⟨Bool.eq_false_iff.mpr hd, rfl⟩
    rw [if_neg hd]
    by_cases hx : s.par.waitTimeout ≠ 0#24 ∧ s.wcnt.toNat + 1 ≥ s.par.waitTimeout.toNat
    · rw [if_pos hx, step_aborts hq hb hseq (uopVerdict_eq_abort_iff.mpr (.inr ⟨hun, hx⟩))]
      simp only [ErrCode.busFailure, Bool.not_false, Bool.and_true, ErrCode.code]
      rfl
    · rw [if_neg hx, step_stays hq hb hseq (uopVerdict_eq_stay_iff.mpr (.inl ⟨⟨_, hun⟩, hx⟩)), satInc_eq]

/-- Settles O30: each ends at once, with its own writes. -/
theorem oneCycleMicroOps : Obligations.OneCycleMicroOps :=
  fun _ _ hq hb => ⟨fun hseq => step_pops hq hb hseq rfl, fun hseq => step_pops hq hb hseq rfl,
    fun hseq => step_pops hq hb hseq rfl⟩

/-- Settles O31: COMMIT ends at once, with `commitSample`'s writes. -/
theorem commitCycle : Obligations.CommitCycle := by
  intro s rest hq hb hseq
  rw [step_pops hq hb hseq rfl]
  simp only [popped, uopEffect, commitSample, axisRule_cls, fireButton_eq, beq_eq_decide, decide_eq_true_eq, perCycle_hx,
    perCycle_hy, perCycle_hb]

/-- Settles O34: the abort comes first in the cycle, so the refusal's code finds its own recorded, and the clear finds it
raised after. -/
theorem sequencerErrorWinsSameCycle : Obligations.SequencerErrorWinsSameCycle := by
  intro s i rest u uops code c v hr hb hseq hfail
  refine ⟨?_, ?_⟩
  · obtain ⟨t, ht, herr, hend⟩ := cycle_of_failure hb hseq hfail (.write 0x0#4 c) rest false (some .eBusy)
    have hstep := step_cmd_refused (s := s.withEnv (withAccess i (.write 0x0#4 c) :: rest)) (c := c) (e := .eBusy)
      (by simpa using hr) (by simp) (cmdRefusal_busy hb)
    rw [ht] at hstep
    exact ⟨t, hstep, by simpa using herr, hend⟩
  · obtain ⟨t, ht, herr, hend⟩ := cycle_of_failure hb hseq hfail (.write 0x3#4 v) rest true none
    rw [step_placed hr (by simp), registerCycle_write_errcode, ht]
    exact ⟨t, rfl, by simpa using herr, hend⟩

/-! ### The obligations about waits -/

/-- Settles O36: the word waits to its bound, then aborts as a bus failure. -/
theorem busTimeoutAborts : Obligations.BusTimeoutAborts := by
  intro s w rest hb hseq hw hbound hd
  have hp : ∀ v : State, (v.hostQuiet && !v.inputs.btDone) = true →
      v.hostQuiet = true ∧ unanswered v (.bw w) = some .eBusTimeout := by
    intro v hv
    obtain ⟨hq, hdone⟩ := Bool.and_eq_true_iff.mp hv
    exact ⟨hq, unanswered_bw_iff.mpr ⟨by simpa using hdone, rfl⟩⟩
  have hs : Waiting s (.bw w) rest 0 s := ⟨hb, hseq, by rw [hw]; rfl, rfl, rfl, rfl, rfl, rfl⟩
  refine ⟨?_, fun k hk => ?_⟩
  · obtain ⟨t, ht, htb, htseq, htw, hdone, herr, hdata, hunits⟩ := run_expires hp hs hd hbound
    refine ⟨t, ht, htb, htseq, htw, by rw [hdone]; simp [ErrCode.busFailure], herr, hdata, ?_, hunits⟩
    simp [State.btReq, State.busWord?, htb]
  · obtain ⟨t, ht, hwait⟩ := run_waiting hp hs hd hk
    exact ⟨t, ht, busWord?_eq_some_iff.mpr ⟨hwait.busy, rest, hwait.seq⟩, hwait.seq, hwait.errcode, hwait.initDone⟩

/-- Settles O37: the conversion waits to its bound, then aborts, which is no bus failure. -/
theorem adcTimeoutAborts : Obligations.AdcTimeoutAborts := by
  intro s ch rest hb hseq hw hbound hd
  have hp : ∀ v : State, (v.hostQuiet && !v.inputs.adcDone) = true →
      v.hostQuiet = true ∧ unanswered v (.adc ch) = some .eAdcTimeout := by
    intro v hv
    obtain ⟨hq, hdone⟩ := Bool.and_eq_true_iff.mp hv
    exact ⟨hq, unanswered_adc_iff.mpr ⟨by simpa using hdone, rfl⟩⟩
  have hs : Waiting s (.adc ch) rest 0 s := ⟨hb, hseq, by rw [hw]; rfl, rfl, rfl, rfl, rfl, rfl⟩
  refine ⟨?_, fun k hk => ?_⟩
  · obtain ⟨t, ht, htb, htseq, htw, hdone, herr, hdata, hunits⟩ := run_expires hp hs hd hbound
    exact ⟨t, ht, htb, htseq, htw, by rw [hdone]; simp [ErrCode.busFailure], herr, hdata, hunits⟩
  · obtain ⟨t, ht, hwait⟩ := run_waiting hp hs hd hk
    exact ⟨t, ht, adcAxis?_eq_some_iff.mpr ⟨hwait.busy, rest, hwait.seq⟩, hwait.seq, hwait.errcode⟩

/-- Settles O38: without a bound nothing but a response ends the wait. -/
theorem unansweredWaitHangs : Obligations.UnansweredWaitHangs := by
  refine ⟨fun k s w rest hpar hb hseq hd => ?_, fun k s ch rest hpar hb hseq hd => ?_⟩
  · obtain ⟨t, ht, htb, htseq, htw⟩ := run_wait (u := .bw w) (e := .eBusTimeout)
      (fun v hv => by simpa [State.noReset, unanswered_bw_iff] using hv) k hpar hb hseq hd
    exact ⟨t, ht, htb, htseq, busWord?_eq_some_iff.mpr ⟨htb, rest, htseq⟩, htw⟩
  · obtain ⟨t, ht, htb, htseq, htw⟩ := run_wait (u := .adc ch) (e := .eAdcTimeout)
      (fun v hv => by simpa [State.noReset, unanswered_adc_iff] using hv) k hpar hb hseq hd
    exact ⟨t, ht, htb, htseq, adcAxis?_eq_some_iff.mpr ⟨htb, rest, htseq⟩, htw⟩

/-! ### The obligations about SAMPLE and LATCHCLR -/

theorem hostQuiet_of_env {s : State} {i : Inputs} {rest : List Inputs} (henv : s.env = i :: rest) (hr : i.rst = false)
    (hw : i.hEn = false ∨ i.hWe = false) : s.hostQuiet = true := by
  rw [State.hostQuiet, inputs_of_env henv]
  rcases hw with hw | hw <;> simp [hr, hw]

theorem withEnv_of_env {s : State} {env : List Inputs} (h : s.env = env) : s.withEnv env = s := by
  rw [← h]
  rfl

/-- The state after the acceptance of the command `i`, its coming cycles' inputs `env`. -/
def accepted (s : State) (i0 : Inputs) (env : List Inputs) (i : Instr) : State :=
  accept (s.withEnv (i0 :: env)) (encode i) (prog s.par s.data i) (perCycle (s.withEnv (i0 :: env)))

theorem exec_accepted_env {s : State} {i0 : Inputs} {env : List Inputs} {i : Instr} (henv : s.env = i0 :: env)
    (hb : s.busy = false) (hg : gate s i = none) : exec i s = .next (accepted s i0 env i) := by
  rw [exec_accepted_idle hb hg, accepted, withEnv_of_env henv]

/-- Settles O42: acceptance, then LCLR, which ends at once. -/
theorem latchclrPerformed : Obligations.LatchclrPerformed := by
  intro s i0 i1 rest henv hb hr hw
  have hlclr := step_pops (s := accepted s i0 (i1 :: rest) .latchclr) (u := .lclr) (rest := [])
    (hostQuiet_of_env rfl hr hw) rfl rfl rfl
  refine ⟨_, exec_accepted_env henv hb rfl, ?_⟩
  rw [hlclr]
  simp only [popped, uopEffect, accepted, accept, perCycle, State.withEnv, State.inputs, State.operand, List.tail_cons]
  rfl

/-- Settles O41: acceptance, then the two answered conversions, the button capture and the commit; each next state is
written out before the next cycle. -/
theorem samplePerformed : Obligations.SamplePerformed := by
  intro s i0 i1 i2 i3 i4 rest henv hb hquiet hdx hdy
  simp only [List.forall_mem_cons] at hquiet
  obtain ⟨⟨hr1, hw1⟩, ⟨hr2, hw2⟩, ⟨hr3, hw3⟩, ⟨hr4, hw4⟩, _⟩ := hquiet
  have hx := step_pops (s := accepted s i0 (i1 :: i2 :: i3 :: i4 :: rest) .sample) (u := .adc .x)
    (rest := [.adc .y, .btncap, .commit]) (hostQuiet_of_env rfl hr1 hw1) rfl rfl (uopVerdict_eq_pop_iff.mpr hdx)
  generalize ht1 : popped _ _ _ = t1 at hx
  simp only [popped, uopEffect, accepted, accept, perCycle, State.withEnv, State.inputs, State.operand, List.tail_cons]
    at ht1
  have hy := step_pops (s := t1) (u := .adc .y) (rest := [.btncap, .commit])
    (hostQuiet_of_env (by rw [← ht1]) hr2 hw2) (by rw [← ht1]; rfl) (by rw [← ht1])
    (uopVerdict_eq_pop_iff.mpr (by rw [← ht1]; exact hdy))
  generalize ht2 : popped t1 _ _ = t2 at hy
  simp only [popped, uopEffect, perCycle, State.inputs, ← ht1, List.tail_cons] at ht2
  have hbtn := step_pops (s := t2) (u := .btncap) (rest := [.commit])
    (hostQuiet_of_env (by rw [← ht2]) hr3 hw3) (by rw [← ht2]; rfl) (by rw [← ht2]) rfl
  generalize ht3 : popped t2 _ _ = t3 at hbtn
  simp only [popped, uopEffect, perCycle, State.inputs, ← ht2, List.tail_cons] at ht3
  have hcommit := commitCycle t3 [] (hostQuiet_of_env (by rw [← ht3]) hr4 hw4) (by rw [← ht3]; rfl) (by rw [← ht3])
  refine ⟨_, exec_accepted_env henv hb rfl, ?_⟩
  rw [run_succ hx, run_succ hy, run_succ hbtn, run_succ hcommit, run_zero]
  simp only [perCycle, State.inputs, ← ht3, List.tail_cons]
  rfl

end Sys2Proof.Proofs
end

section
/-! Who writes which element (10_state.md R18, R21 to R24, R27 to R33; 60_exceptions.md R101), and what no run of cycles
can do to the events (42_input.md R93 to R96, R100): the lemmas, then the obligations about them. -/

namespace Sys2Proof.Proofs

open Sys2Proof.Machine Sys2Proof.Laws

/-! ### ERRCODE -/

section Errcode

variable {s t : State}

/-- A recorded code changes only where the host clears it. -/
theorem errcode_kept (hr : s.inputs.rst = false) (h : step s = .next t) (he : s.errcode ≠ 0x00#8)
    (hno : ∀ v, hostAccess s.inputs ≠ .write 0x3#4 v) : t.errcode = s.errcode := by
  have hkeep : ∀ x, raise s.errcode x = s.errcode := by
    intro x
    rcases raise_cases s.errcode x with hx | ⟨h0, _⟩
    · exact hx
    · exact absurd h0 he
  rcases (step_hostEffect hr h).err with hx | ⟨v, ha, _⟩ | ⟨c, y, _, hx⟩
  · rw [hx, hkeep]
  · exact absurd ha (hno v)
  · rw [hx, hkeep, hkeep]

/-- Without a recorded code one is recorded only by the sequencer or by a refused CMD write. -/
theorem errcode_raised (hr : s.inputs.rst = false) (h : step s = .next t) (he : s.errcode = 0x00#8)
    (hx : seqRaise s = none) (hno : ∀ c, hostAccess s.inputs ≠ .write 0x0#4 c) : t.errcode = 0x00#8 := by
  have herr := (step_hostEffect hr h).err
  rw [hx, he, raise_none] at herr
  rcases herr with herr | ⟨_, _, herr⟩ | ⟨c, _, ha, _⟩
  · exact herr
  · exact herr
  · exact absurd ha (hno c)

theorem noAbort_eq_false (h : s.inputs.rst = true ∨ seqRaise s ≠ none) : s.noAbort = false := by
  refine Bool.eq_false_iff.mpr fun hna => ?_
  obtain ⟨hr, hx⟩ := noAbort_iff.mp hna
  rcases h with h | h
  · rw [hr] at h
    cases h
  · exact h hx

theorem hostAccess_write {i : Inputs} {a : HostAddr} {v : Byte} (h : hostAccess i = .write a v) :
    i.hEn = true ∧ i.hWe = true ∧ i.haddr = a ∧ i.hwdata = v := by
  unfold hostAccess at h
  split_ifs at h with hen hwe
  cases h
  exact ⟨hen, hwe, rfl, rfl⟩

end Errcode

/-! ### BUSY, CUR and OPR, INIT_DONE, VALID -/

section Flags

variable {s t : State}

theorem busy_rises (h : step s = .next t) (hb : s.busy = false) (ht : t.busy = true) :
    s.inputs.rst = false ∧ ∃ c i, hostAccess s.inputs = .write 0x0#4 c ∧ decode c = .ok i ∧ t.cur = c := by
  cases stepCase_of_step h with
  | reset _ he => subst he; cases ht
  | accepts c i hr _ ha hd _ he => subst he; exact ⟨hr, c, i, ha, hd, encode_of_decode hd⟩
  | idles d e _ _ _ he => subst he; exact absurd (hb.symm.trans ht) (by decide)
  | ends _ _ _ hb' => exact absurd (hb.symm.trans hb') (by decide)
  | stays _ _ _ _ _ hb' => exact absurd (hb.symm.trans hb') (by decide)
  | pops _ _ _ _ _ hb' => exact absurd (hb.symm.trans hb') (by decide)
  | aborts _ _ _ _ _ _ hb' => exact absurd (hb.symm.trans hb') (by decide)

theorem busy_falls (h : step s = .next t) (hb : s.busy = true) (ht : t.busy = false) :
    s.seq.length ≤ 1 ∨ s.noAbort = false := by
  cases stepCase_of_step h with
  | reset hr _ => exact .inr (noAbort_eq_false (.inl hr))
  | accepts _ _ _ hb' => exact absurd (hb.symm.trans hb') (by decide)
  | idles _ _ _ hb' => exact absurd (hb.symm.trans hb') (by decide)
  | ends d e _ _ hseq _ _ => exact .inl (by simp [hseq])
  | stays u rest d e _ _ _ _ _ he => subst he; exact absurd (hb.symm.trans ht) (by decide)
  | pops u rest d e _ _ hseq _ _ he =>
    subst he
    have hrest : rest = [] := by simpa [settled, popSeq] using ht
    exact .inl (by simp [hseq, hrest])
  | aborts u rest x d e _ _ hseq hv _ _ =>
    exact .inr (noAbort_eq_false (.inr fun hx => (seqRaise_eq_none_iff hb hseq).mp hx x hv))

/-- Only a bus word aborts with a bus failure. -/
theorem bw_of_busFailure {u : MicroOp} {x : ErrCode} (hv : uopVerdict s u = .abort x) (hx : x.busFailure = true) :
    ∃ w, u = .bw w := by
  rcases uopVerdict_eq_abort_iff.mp hv with ⟨w, hu, _⟩ | ⟨hun, _⟩
  · exact ⟨w, hu⟩
  · cases u with
    | bw w => exact ⟨w, rfl⟩
    | adc ch =>
      obtain ⟨_, rfl⟩ := unanswered_adc_iff.mp hun
      cases hx
    | dly _ | btncap | commit | lclr | setinit => cases hun

/-- INIT_DONE changes only by SETINIT, by a reset edge, and by a failed bus word. -/
theorem initDone_cases (h : step s = .next t) :
    t.initDone = s.initDone ∨ (s.inputs.rst = true ∧ t.initDone = false) ∨
      (s.performs .setinit = true ∧ t.initDone = true) ∨
      (s.btReq = true ∧ s.noAbort = false ∧ t.initDone = false) := by
  cases stepCase_of_step h with
  | reset hr he => subst he; exact .inr (.inl ⟨hr, rfl⟩)
  | accepts _ _ _ _ _ _ _ he => subst he; exact .inl rfl
  | idles _ _ _ _ _ he => subst he; exact .inl rfl
  | ends _ _ _ _ _ _ he => subst he; exact .inl rfl
  | stays _ _ _ _ _ _ _ _ _ he => subst he; exact .inl rfl
  | pops u rest d e hr hb hseq _ _ he =>
    subst he
    by_cases hu : u = .setinit
    · subst hu
      exact .inr (.inr (.inl ⟨(performs_iff s .setinit).mpr ⟨hr, hb, rest, hseq⟩, rfl⟩))
    · exact .inl (uopEffect_initDone hu s (perCycle s))
  | aborts u rest x d e _ hb hseq hv _ he =>
    subst he
    have hna : s.noAbort = false :=
      noAbort_eq_false (.inr fun hx => (seqRaise_eq_none_iff hb hseq).mp hx x hv)
    cases hbus : x.busFailure with
    | true =>
      obtain ⟨w, rfl⟩ := bw_of_busFailure hv hbus
      exact .inr (.inr (.inr ⟨btReq_iff.mpr ⟨hb, w, rest, hseq⟩, hna, by simp [hbus]⟩))
    | false => exact .inl (by simp [hbus])

theorem valid_cases (hr : s.inputs.rst = false) (h : step s = .next t) :
    (s.performs .commit = true ∧ t.valid = true) ∨ t.valid = s.valid := by
  cases hc : s.performs .commit with
  | true =>
    refine .inl ⟨rfl, ?_⟩
    rw [step_commit hc h]
    rfl
  | false =>
    have hk := step_keeps_committed hr hc h
    simp only [committed, Prod.mk.injEq] at hk
    obtain ⟨_, _, _, _, _, _, _, _, _, _, hvalid⟩ := hk
    exact .inr hvalid

theorem cur_opr_cases (hr : s.inputs.rst = false) (h : step s = .next t) :
    (t.cur = s.cur ∧ t.opr = s.opr) ∨ (s.busy = false ∧ t.busy = true ∧ t.opr = s.data) := by
  cases hb : s.busy with
  | true => exact .inl (step_busy_cur_opr hr hb h)
  | false =>
    cases stepCase_of_step h with
    | reset hr' _ => exact absurd (hr.symm.trans hr') (by decide)
    | accepts _ _ _ _ _ _ _ he => subst he; exact .inr ⟨rfl, rfl, rfl⟩
    | idles _ _ _ _ _ he => subst he; exact .inl ⟨rfl, rfl⟩
    | ends _ _ _ hb' => exact absurd (hb.symm.trans hb') (by decide)
    | stays _ _ _ _ _ hb' => exact absurd (hb.symm.trans hb') (by decide)
    | pops _ _ _ _ _ hb' => exact absurd (hb.symm.trans hb') (by decide)
    | aborts _ _ _ _ _ _ hb' => exact absurd (hb.symm.trans hb') (by decide)

end Flags

/-! ### Events and latches over a run -/

section Axis

variable {s t : State} {a : Axis} {d : Dir}

/-- The directions that EVENT reports of an axis are the latch's (R100). -/
def agrees (u : AxisUnit) : Prop :=
  (u.evPos = true → u.latch = .pos) ∧ (u.evNeg = true → u.latch = .neg)

theorem eventsAgree_iff : s.eventsAgree ↔ agrees (axisUnit s .x) ∧ agrees (axisUnit s .y) := by
  simp only [State.eventsAgree, agrees, axisUnit, and_assoc]

theorem step_keeps_agrees (hr : s.inputs.rst = false) (hl : s.performs .lclr = false) (h : step s = .next t)
    (hs : agrees (axisUnit s a)) : agrees (axisUnit t a) := by
  cases hc : s.performs .commit with
  | true =>
    obtain ⟨hlatch, hpos, hneg⟩ := step_commit_axis a hc h
    refine ⟨fun he => ?_, fun he => ?_⟩
    · rw [hpos, beq_iff_eq] at he
      obtain ⟨_, _, _, hd⟩ := axisRule_fired he
      exact hlatch.trans hd
    · rw [hneg, beq_iff_eq] at he
      obtain ⟨_, _, _, hd⟩ := axisRule_fired he
      exact hlatch.trans hd
  | false =>
    obtain ⟨hpos, hneg⟩ := step_keeps_events a hr hc h
    rw [agrees, hpos, hneg, step_keeps_latch a hr hc hl h]
    exact hs

/-- A commit in this cycle finds a reading in the direction `d` or between the bands. -/
def HeldReading (s : State) (a : Axis) (d : Dir) : Prop :=
  s.performs .commit = true → cls (axisUnit s a).reading = .dead ∨ (cls (axisUnit s a).reading).dir? = some d

theorem fires_of_held (hl : (axisUnit s a).latch = d.latch) (hv : HeldReading s a d) : fires s a = false := by
  cases hc : s.performs .commit with
  | true =>
    obtain ⟨hnone, _⟩ := axisRule_of_held (h := (axisUnit s a).hold) (hv hc) hl
    rw [fires, axisAction, hnone]
    simp
  | false => rw [fires, hc, Bool.false_and]

/-- A held latch, and no event that `s₀` did not report. -/
structure Held (s₀ : State) (a : Axis) (d : Dir) (s : State) : Prop where
  latch : (axisUnit s a).latch = d.latch
  evPos : (axisUnit s₀ a).evPos = false → (axisUnit s a).evPos = false
  evNeg : (axisUnit s₀ a).evNeg = false → (axisUnit s a).evNeg = false

theorem step_keeps_held {s₀ : State} (hs : Held s₀ a d s) (hr : s.inputs.rst = false) (hl : s.performs .lclr = false)
    (hv : HeldReading s a d) (h : step s = .next t) : Held s₀ a d t := by
  cases hc : s.performs .commit with
  | true =>
    obtain ⟨hlatch, hpos, hneg⟩ := step_commit_axis a hc h
    obtain ⟨hnone, hkeep⟩ := axisRule_of_held (h := (axisUnit s a).hold) (hv hc) hs.latch
    rw [axisAction, hkeep] at hlatch
    rw [axisAction, hnone] at hpos hneg
    exact ⟨hlatch.trans hs.latch, fun _ => hpos, fun _ => hneg⟩
  | false =>
    obtain ⟨hpos, hneg⟩ := step_keeps_events a hr hc h
    exact ⟨(step_keeps_latch a hr hc hl h).trans hs.latch, fun h0 => hpos.trans (hs.evPos h0),
      fun h0 => hneg.trans (hs.evNeg h0)⟩

theorem heldReading_of_cycle {v : State}
    (hv : (v.noReset && !v.performs .lclr && (!v.performs .commit || cls (axisUnit v a).reading == .dead ||
      (cls (axisUnit v a).reading).dir? == some d)) = true) :
    v.inputs.rst = false ∧ v.performs .lclr = false ∧ HeldReading v a d := by
  simp only [State.noReset, Bool.and_eq_true, Bool.or_eq_true, Bool.not_eq_true', beq_iff_eq] at hv
  obtain ⟨⟨hr, hlclr⟩, hread⟩ := hv
  exact ⟨hr, hlclr, fun hc => by simpa [hc] using hread⟩

theorem run_held {p : State → Bool} {k : Nat}
    (hp : ∀ v, p v = true → v.inputs.rst = false ∧ v.performs .lclr = false ∧ HeldReading v a d)
    (hl : (axisUnit s a).latch = d.latch) (hd : during (k + 1) p s = true) :
    ∃ t, run k s = .next t ∧ Held s a d t ∧ fires t a = false := by
  obtain ⟨t, ht⟩ := run_total k s
  have hend : Held s a d t :=
    run_keeps (fun hv hpv hstep => by
      obtain ⟨hr, hlclr, hread⟩ := hp _ hpv
      exact step_keeps_held hv hr hlclr hread hstep) ⟨hl, id, id⟩ (during_le (Nat.le_succ k) hd) ht
  obtain ⟨_, _, hread⟩ := hp t (during_run hd (Nat.lt_succ_self k) ht)
  exact ⟨t, ht, hend, fires_of_held hend.latch hread⟩

end Axis

section Button

variable {s t : State}

theorem firesB_of_pressed (hb : s.bprev = false) : s.firesB = false := by
  simp [State.firesB, fireButton, press, hb]

/-- The pressed level stored, and no press that `s₀` did not report. -/
structure Pressed (s₀ s : State) : Prop where
  level : s.bprev = false
  event : s₀.evBPress = false → s.evBPress = false

theorem step_keeps_pressed {s₀ : State} (hs : Pressed s₀ s) (hr : s.inputs.rst = false)
    (hlevel : s.performs .commit = true → s.bs = false) (h : step s = .next t) : Pressed s₀ t := by
  cases hc : s.performs .commit with
  | true =>
    have ht := step_commit hc h
    refine ⟨?_, fun _ => ?_⟩
    · rw [ht]
      exact hlevel hc
    · rw [ht]
      change fireButton s.bprev s.bs s.hb = false
      simp [fireButton, press, hs.level]
  | false =>
    have hk := step_keeps_committed hr hc h
    simp only [committed, Prod.mk.injEq] at hk
    obtain ⟨_, _, _, _, _, _, _, _, hevent, hbprev, _⟩ := hk
    exact ⟨hbprev.trans hs.level, fun h0 => hevent.trans (hs.event h0)⟩

end Button

/-! ### The spacing of events (R93, R96) -/

section Spacing

/-- A unit whose counter `hold` is loaded with `load` where `fire` and else counts down, and which fires only at 0. -/
structure HoldoffUnit (hold : State → Count) (fire : State → Bool) (load : Params → Count) : Prop where
  update : ∀ {s t : State}, s.inputs.rst = false → step s = .next t →
    hold t = if fire s then load s.par else dec (hold s)
  expired : ∀ {s : State}, fire s = true → hold s = 0#24

variable {hold : State → Count} {fire : State → Bool} {load : Params → Count}

/-- The counter falls by at most one in a cycle. -/
theorem run_hold (hu : HoldoffUnit hold fire load) {k m : Nat} {s t : State}
    (hs : (load s.par).toNat ≤ (hold s).toNat + m) (hd : during k State.noReset s = true) (h : run k s = .next t) :
    (load s.par).toNat ≤ (hold t).toNat + m + k := by
  induction k generalizing s m with
  | zero => cases h; exact hs
  | succ k ih =>
    obtain ⟨v, hv⟩ := step_total s
    rw [during_succ hv, Bool.and_eq_true] at hd
    rw [run_succ hv] at h
    have hr : s.inputs.rst = false := by simpa [State.noReset] using hd.1
    have hone : (load v.par).toNat ≤ (hold v).toNat + (m + 1) := by
      rw [step_par hv, hu.update hr hv]
      split_ifs
      · omega
      · rw [dec_toNat]
        omega
    have hrest := ih hone hd.2 h
    rw [step_par hv] at hrest
    omega

theorem events_spaced (hu : HoldoffUnit hold fire load) {k : Nat} {s t : State}
    (hd : during (k + 1) State.noReset s = true) (h : run (k + 1) s = .next t) (hs : fire s = true) (ht : fire t = true) :
    (load s.par).toNat + 1 ≤ k + 1 := by
  obtain ⟨v, hv⟩ := step_total s
  rw [during_succ hv, Bool.and_eq_true] at hd
  rw [run_succ hv] at h
  have hr : s.inputs.rst = false := by simpa [State.noReset] using hd.1
  have hloaded : hold v = load s.par := by rw [hu.update hr hv, hs, if_pos rfl]
  have hrun := run_hold (m := 0) hu (by rw [step_par hv, hloaded]; exact le_rfl) hd.2 h
  rw [hu.expired ht, step_par hv] at hrun
  simpa using hrun

theorem holdoffUnit_axis (a : Axis) : HoldoffUnit (fun s => (axisUnit s a).hold) (fun s => fires s a) Params.axisHoldoff where
  update hr h := step_hold_axis a hr h
  expired {s} hf := by
    obtain ⟨_, hsome⟩ := Bool.and_eq_true_iff.mp hf
    obtain ⟨d, hd⟩ := Option.isSome_iff_exists.mp hsome
    exact (axisRule_fired hd).1

theorem holdoffUnit_button : HoldoffUnit State.hb State.firesB Params.btnHoldoff where
  update hr h := step_hold_button hr h
  expired {s} hf := by
    obtain ⟨_, hfire⟩ := Bool.and_eq_true_iff.mp hf
    rw [fireButton_eq, decide_eq_true_iff] at hfire
    obtain ⟨_, _, h0⟩ := hfire
    exact h0

end Spacing

/-! ### The obligations -/

/-- Settles O49: each flag by the cases of a step that write it. -/
theorem flagWriters : Obligations.FlagWriters := by
  intro s t h
  refine ⟨busy_rises h, busy_falls h, fun h0 h1 => ?initRises, fun h1 h0 => ?initFalls, fun h0 h1 => ?validRises,
    fun h1 h0 => ?validFalls, fun h0 hne => ?errRises, fun h1 hne => ?errChanges⟩
  case initRises =>
    rcases initDone_cases h with he | ⟨_, he⟩ | ⟨hp, _⟩ | ⟨_, _, he⟩
    · rw [he, h0] at h1; cases h1
    · rw [he] at h1; cases h1
    · exact hp
    · rw [he] at h1; cases h1
  case initFalls =>
    rcases initDone_cases h with he | ⟨hr, _⟩ | ⟨_, he⟩ | ⟨hreq, hna, _⟩
    · rw [he, h1] at h0; cases h0
    · exact .inl hr
    · rw [he] at h0; cases h0
    · exact .inr ⟨hreq, hna⟩
  case validRises =>
    cases hr : s.inputs.rst with
    | true => rw [step_reset hr] at h; cases h; cases h1
    | false =>
      rcases valid_cases hr h with ⟨hc, _⟩ | he
      · exact hc
      · rw [he, h0] at h1; cases h1
  case validFalls =>
    by_contra hr
    rcases valid_cases (Bool.eq_false_iff.mpr hr) h with ⟨_, he⟩ | he
    · rw [he] at h0; cases h0
    · rw [he, h1] at h0; cases h0
  case errRises =>
    by_contra hcon
    rw [not_or, Bool.not_eq_false, not_exists] at hcon
    obtain ⟨hna, hno⟩ := hcon
    obtain ⟨hr, hx⟩ := noAbort_iff.mp hna
    exact hne (errcode_raised hr h h0 hx hno)
  case errChanges =>
    by_contra hcon
    rw [not_or, not_exists] at hcon
    obtain ⟨hr, hno⟩ := hcon
    exact hne (errcode_kept (Bool.eq_false_iff.mpr hr) h h1 hno)

/-- Settles O50: each element by the only micro-op or access that writes it. -/
theorem registerWriters : Obligations.RegisterWriters := by
  intro s t h
  refine ⟨step_par h, fun hne => ?data, fun hr hc => ?commit, fun hr hc hl => ?latches,
    fun hr hx => step_keeps_xs hr hx h, fun hr hy => step_keeps_ys hr hy h, fun hr hb => step_keeps_bs hr hb h,
    fun hne => ?cmd⟩
  case data =>
    cases hr : s.inputs.rst with
    | true => exact .inl rfl
    | false => exact .inr ((step_hostEffect hr h).data.resolve_left hne)
  case commit =>
    have hk := step_keeps_committed hr hc h
    simp only [committed, Prod.mk.injEq] at hk
    obtain ⟨hxraw, hyraw, hxcls, hycls, hxp, hxn, hyp, hyn, hpress, hlevel, _⟩ := hk
    exact ⟨hxraw, hyraw, hxcls, hycls, hxp, hxn, hyp, hyn, hpress, hlevel⟩
  case latches => exact Prod.mk.inj (step_keeps_latches hr hc hl h)
  case cmd =>
    cases hr : s.inputs.rst with
    | true => exact .inl rfl
    | false =>
      rcases cur_opr_cases hr h with ⟨hcur, hopr⟩ | hacc
      · exact absurd hne (by simp [hcur, hopr])
      · exact .inr hacc

/-- Settles O51, over the run: no cycle of it clears the code. -/
theorem firstErrorKept : Obligations.FirstErrorKept := by
  intro k s he hd
  obtain ⟨t, ht⟩ := run_total k s
  have hkept : t.errcode = s.errcode := by
    refine run_keeps (P := fun v => v.errcode = s.errcode) (fun {v w} hv hp hstep => ?_) rfl hd ht
    obtain ⟨hr, hno⟩ := Bool.and_eq_true_iff.mp hp
    rw [← hv] at he ⊢
    refine errcode_kept (by simpa [State.noReset] using hr) hstep he fun b ha => ?_
    obtain ⟨hen, hwe, haddr, _⟩ := hostAccess_write ha
    simp [hen, hwe, haddr] at hno
  obtain ⟨_, _, hbit, _⟩ := statusByte_bits t
  exact ⟨t, ht, hkept, by rw [hbit, hkept]; exact decide_eq_true he⟩

/-- Settles O52, axis by axis: a commit that reports a direction leaves it in the latch, and only LCLR moves a latch
otherwise. -/
theorem eventAgreesWithLatch : Obligations.EventAgreesWithLatch := by
  have hreset : ∀ p, (State.resetWith p).eventsAgree := fun p => by simp [State.eventsAgree, State.resetWith]
  refine ⟨fun s t hl h hs => ?_, hreset Config.params⟩
  cases hr : s.inputs.rst with
  | true =>
    rw [step_reset hr] at h
    cases h
    exact hreset s.par
  | false =>
    obtain ⟨hx, hy⟩ := eventsAgree_iff.mp hs
    exact eventsAgree_iff.mpr ⟨step_keeps_agrees hr hl h hx, step_keeps_agrees hr hl h hy⟩

/-- Settles O54: an event loads its unit's counter, which must be 0 again at the next. -/
theorem eventSpacing : Obligations.EventSpacing :=
  fun _ _ _ hd h => ⟨events_spaced (holdoffUnit_axis .x) hd h, events_spaced (holdoffUnit_axis .y) hd h,
    events_spaced holdoffUnit_button hd h⟩

/-- Settles O55, for each axis: such a reading neither fires nor moves the latch. -/
theorem heldDeflectionFiresOnce : Obligations.HeldDeflectionFiresOnce := by
  intro k s d
  refine ⟨fun hl hd => ?_, fun hl hd => ?_⟩
  · obtain ⟨t, ht, hheld, hfires⟩ := run_held (a := .x) (d := d) (fun v hv => heldReading_of_cycle hv) hl hd
    exact ⟨t, ht, hheld.latch, hfires, hheld.evPos, hheld.evNeg⟩
  · obtain ⟨t, ht, hheld, hfires⟩ := run_held (a := .y) (d := d) (fun v hv => heldReading_of_cycle hv) hl hd
    exact ⟨t, ht, hheld.latch, hfires, hheld.evPos, hheld.evNeg⟩

/-- Settles O56: a press needs the released level stored before. -/
theorem heldButtonFiresOnce : Obligations.HeldButtonFiresOnce := by
  intro k s hb hd
  obtain ⟨t, ht⟩ := run_total k s
  have hend : Pressed s t := by
    refine run_keeps (P := Pressed s) (fun {v w} hv hp hstep => ?_) ⟨hb, id⟩ hd ht
    simp only [State.noReset, Bool.and_eq_true, Bool.or_eq_true, Bool.not_eq_true'] at hp
    obtain ⟨hr, hlevel⟩ := hp
    exact step_keeps_pressed hv hr (fun hc => by simpa [hc] using hlevel) hstep
  exact ⟨t, ht, hend.level, firesB_of_pressed hend.level, hend.event⟩

end Sys2Proof.Proofs
end
